-- ==== Sys2Proof/Word.lean ====
section
/-! DEFINITION. The word types of the CKU. Widths: spec/10_state.md R24, R25, R28, R40 and
spec/30_encoding.md R100, R102. Bits are numbered from the least significant (spec/00_scope.md R8). -/

namespace Sys2Proof

/-- One byte of the shared memory (20_memory.md R70). -/
abbrev Byte := BitVec 8

/-- A 64-bit word: an address, an `ETOD` half, a TOD, a timer base (10_state.md R20). -/
abbrev Word := BitVec 64

/-- The 32-bit command word `CW` (30_encoding.md R102). -/
abbrev CmdWord := BitVec 32

/-- A 128-bit bus value, and the type `ETOD` as one value, `high` the more significant word
(10_state.md R24). -/
abbrev Wide := BitVec 128

/-- A 16-bit program-interruption code or interception reason (30_encoding.md R101). -/
abbrev Pic := BitVec 16

end Sys2Proof
end

