-- ==== Sys2Proof/Machine/Bits.lean ====
section
/-! DEFINITION. The bit-field and extension helpers of the CKU: the two words of an `ETOD`
(spec/10_state.md R24), `zext`, `sext`, `asr64`, `tdiv` (spec/00_scope.md R7, R9). -/

namespace Sys2Proof.Machine

/-- The more significant word of an `ETOD`, `e[127:64]` (10_state.md R24). -/
def etodHigh (e : Wide) : Word := e.extractLsb' 64 64

/-- The less significant word of an `ETOD`, `e[63:0]` (10_state.md R24). -/
def etodLow (e : Wide) : Word := e.extractLsb' 0 64

/-- `{high, low}` as one value (00_scope.md R7, 10_state.md R24). -/
def mkEtod (high low : Word) : Wide := high ++ low

/-- A 64-bit result on the response bus, the upper half 0 (30_encoding.md R101, R104). -/
def wideOfWord (v : Word) : Wide := v.setWidth 128

/-- An integer reduced modulo `2^64` (00_scope.md R7). -/
def wordOfInt (v : Int) : Word := BitVec.ofInt 64 v

/-- `asr64(v, n)`: the arithmetic shift, the floor of `s64(v) / 2^n` (00_scope.md R7). -/
def asr64 (v : Word) (n : Nat) : Word := wordOfInt (v.toInt / ((2 ^ n : Nat) : Int))

/-- The low 32 bits, sign-extended to 64 (43_timers.md R218). -/
def low32Signed (v : Int) : Word := (BitVec.ofInt 32 v).signExtend 64

/-- The low `n` bytes of a bus value, the other bytes 0 (44_sync.md R261: `A[8n-1:0]`). -/
def lowBytes (n : Nat) (v : Wide) : Wide := BitVec.ofNat 128 (v.toNat % 2 ^ (8 * n))

end Sys2Proof.Machine
end

