-- ==== Sys2Proof/Config.lean ====
section
/-! DEFINITION. What an implementation fixes (the parameters of spec/00_scope.md R6) and the free
values of the model: what the host, the memory-access layer and the schedule answer, and the one
result the spec leaves open (spec/93_implementation_defined.md U5). -/

namespace Sys2Proof

/-- The finest host resolution, parameter `HOST_RES` (00_scope.md R6, 41_host_time.md R161). -/
inductive HostRes where
  | ns
  | us
  deriving DecidableEq, Repr

/-- One answer of the host's clock (41_host_time.md R161). `fail` says that the sub-second read failed. -/
structure HostSample where
  sec : Word
  nsec : BitVec 32
  fail : Bool
  deriving DecidableEq, Repr, Inhabited

/-- The kind of access the memory-access layer is asked about; the block has one (20_memory.md R80). -/
inductive AccessKind where
  | rmw
  deriving DecidableEq, Repr

/-- The access exceptions the memory-access layer may answer (20_memory.md R80). -/
inductive AccessFault where
  | protection
  | addressing
  | segmentTranslation
  | pageTranslation
  | translationSpecification
  deriving DecidableEq, Repr

/-- The verdict of `AccessCheck` (20_memory.md R80). -/
inductive Verdict where
  | granted
  | faulted (f : AccessFault)
  deriving DecidableEq, Repr, Inhabited

/-- One value of an `AccessCheck` function: the verdict on an access of `bytes` bytes at `addr`. -/
structure AccessRule where
  addr : Word
  bytes : Nat
  kind : AccessKind
  verdict : Verdict
  deriving DecidableEq, Repr

/-- The parameter `AccessCheck` (00_scope.md R6, 93_implementation_defined.md U21), as plain data
(log entry 20). -/
inductive AccessCheck where
  /-- Any verdict per call: a draw (log entry 5). -/
  | perCall
  /-- A function of the address, the width and the kind: the first rule for them, else `otherwise`. -/
  | function (rules : List AccessRule) (otherwise : Verdict)
  deriving DecidableEq, Repr

/-- The parameters of the block (00_scope.md R6), under the names of that table. `NCPU` and `NPORT`
fix how many per-CPU slots and ports reset builds. -/
structure Config where
  ncpu : Nat
  nport : Nat
  precisionBits : Nat
  hostRes : HostRes
  epoch1970Us : Int
  rateFracBits : Nat
  todClockMask : Word
  cptShift : Nat
  rcpLock : Byte
  rcpHref : Byte
  rcpHch : Byte
  rcpGref : Byte
  rcpGch : Byte
  skaipMask : Byte
  scaIpteLock : Byte
  useSkaipAsLock : Bool
  pgsteRcpOffset : Nat
  keyShift : Nat
  hasLong : Bool
  icptCsReason : Pic
  accessCheck : AccessCheck
  deriving DecidableEq, Repr

/-- A one-bit mask in a byte. -/
def isOneBitMask (m : Byte) : Bool :=
  m ≠ 0#8 && m &&& (m - 1#8) = 0#8

/-- The legal values of the parameters (00_scope.md R6, column "legal values"). -/
def Config.legal (c : Config) : Bool :=
  decide (1 ≤ c.ncpu) && decide (c.ncpu ≤ 256) && decide (1 ≤ c.nport) &&
  decide (60 ≤ c.precisionBits) && decide (c.precisionBits ≤ 128) &&
  decide (1 ≤ c.rateFracBits) && decide (c.rateFracBits ≤ 63) &&
  decide (c.cptShift ≤ 63) && decide (c.keyShift ≤ 63) &&
  [c.rcpLock, c.rcpHref, c.rcpHch, c.rcpGref, c.rcpGch].all isOneBitMask &&
  decide [c.rcpLock, c.rcpHref, c.rcpHch, c.rcpGref, c.rcpGch].Nodup &&
  isOneBitMask c.skaipMask && isOneBitMask c.scaIpteLock

/-- FREE VALUE (93_implementation_defined.md U20, log entry 3): the host's answer to free draw `k`. -/
opaque Config.hostSample (k : Nat) : HostSample

/-- FREE VALUE (10_state.md R48, log entry 11): the host's answer at the reset instant. -/
opaque Config.resetSample : HostSample

/-- FREE VALUE (93_implementation_defined.md U21, log entry 5): the memory-access layer's verdict on
free draw `k` for the `n` bytes at an address. -/
opaque Config.accessVerdict (k : Nat) (addr : Word) (n : Nat) (kind : AccessKind) : Verdict

/-- FREE VALUE (93_implementation_defined.md U17, log entry 6): the port the schedule names on free
draw `k`. -/
opaque Config.schedulePort (k : Nat) : Nat

/-- FREE VALUE (93_implementation_defined.md U5, log entry 12): the 64 bits `E2IT` and `GETIT` answer
on free draw `k` for a distance outside the range of 43_timers.md R218. -/
opaque Config.tickOverflow (k : Nat) (d : Word) : Word

/-- FREE VALUE (93_implementation_defined.md U22, log entry 2): the `OPEN` parameter `ICPT_CS_REASON`
of the configuration State.reset stands in. -/
opaque Config.openIcptReason : Pic

end Sys2Proof
end

