-- ==== Sys2Proof/Syntax.lean ====
section
/-! DEFINITION. The commands of the CKU: one constructor per row of spec/opcode_table.json, its
arguments the live fields of the row's format (spec/30_encoding.md R102, R103). `p` is `CW[11]`,
`cpu` is `CW[23:16]`, `m` (read as `i` by the compare-and-swap forms) is `CW[10]`, `cci` is `CW[9:8]`,
`r1` is `CW[7:4]`, `r3` is `CW[3:0]`. The operands stand on the request's buses (R104), not here. -/

namespace Sys2Proof

/-- A command of the block (opcode map: 30_encoding.md R110 to R115). -/
inductive Instr where
  -- family 0, ETOD arithmetic
  | eadd (p : Bool)
  | esub (p : Bool)
  | eshf (p : Bool)
  | e2t (p : Bool)
  | t2e (p : Bool)
  -- family 1, host time
  | h2e (p : Bool)
  | h2eF (p : Bool)
  | hclk (p : Bool)
  -- family 2, steering and epoch
  | csrrst (p : Bool)
  | setrateF (p : Bool)
  | setrateG (p : Bool)
  | getrateF (p : Bool)
  | getrateG (p : Bool)
  | getrateT (p : Bool)
  | fetch (p : Bool)
  | setclk (p : Bool)
  | adjoff (p : Bool)
  | update (p : Bool)
  | getepo (p : Bool) (cpu : BitVec 8)
  | setepo (p : Bool) (cpu : BitVec 8)
  | todclk (p : Bool) (cpu : BitVec 8)
  | rdcsrSt (p : Bool)
  | rdcsrBo (p : Bool)
  | rdcsrTv (p : Bool)
  -- family 3, timers
  | getcpt (p : Bool) (cpu : BitVec 8)
  | setcpt (p : Bool) (cpu : BitVec 8)
  | cptpnd (p : Bool) (cpu : BitVec 8)
  | getit (p : Bool) (cpu : BitVec 8)
  | setit (p : Bool) (cpu : BitVec 8)
  | it2e (p : Bool)
  | e2it (p : Bool)
  -- family 4, synchronisation
  | lockR (p : Bool)
  | lockP (p : Bool)
  | lockS (p : Bool)
  | trylockR (p : Bool)
  | trylockP (p : Bool)
  | trylockS (p : Bool)
  | unlockR (p : Bool)
  | unlockP (p : Bool)
  | unlockS (p : Bool)
  | gacq (p : Bool)
  | grel (p : Bool)
  | casW (p i : Bool)
  | casG (p i : Bool)
  | casQ (p i : Bool) (r1 r3 : BitVec 4)
  | casD (p i : Bool) (r1 r3 : BitVec 4)
  -- family 5, long-operation contracts
  | agl (p m : Bool)
  | sgl (p m : Bool)
  | alcgl (p : Bool) (cci : BitVec 2)
  | slbgl (p : Bool) (cci : BitVec 2)
  | slagl (p m : Bool)
  | bctgl (p : Bool)
  | brctgl (p : Bool)
  deriving DecidableEq, Repr

end Sys2Proof
end

