-- ==== Sys2Proof/Decode.lean ====
section
/-! DEFINITION. The decoder, total on any 32 bits and rejecting by name (spec/30_encoding.md R102,
R103, R110 to R116, R120, R121), the encoder, and the opcode table's match and mask of each row.
The privilege bit of a command that decodes, its slot number, the pairing and the alignment are
checked by its meaning, in the order of R121. -/

namespace Sys2Proof

/-- The fields of a command word (30_encoding.md R102). -/
structure Fields where
  opc : BitVec 8
  cpu : BitVec 8
  sel : BitVec 4
  p : Bool
  m : Bool
  cci : BitVec 2
  r1 : BitVec 4
  r3 : BitVec 4
  deriving DecidableEq, Repr

/-- Cut a command word into its fields (30_encoding.md R102). -/
def unpackFields (w : CmdWord) : Fields where
  opc := w.extractLsb' 24 8
  cpu := w.extractLsb' 16 8
  sel := w.extractLsb' 12 4
  p := w.getLsbD 11
  m := w.getLsbD 10
  cci := w.extractLsb' 8 2
  r1 := w.extractLsb' 4 4
  r3 := w.extractLsb' 0 4

/-- Lay the fields out as a command word (30_encoding.md R102). -/
def packFields (f : Fields) : CmdWord :=
  f.opc ++ f.cpu ++ f.sel ++ BitVec.ofBool f.p ++ BitVec.ofBool f.m ++ f.cci ++ f.r1 ++ f.r3

/-- Why a word names no command (30_encoding.md R120, R121). -/
inductive Rejection where
  /-- `OPC` unassigned, reserved, or of an absent family 5. -/
  | operation
  /-- The `OPC` is a privileged command's and `P = 0`; tested before the fields. -/
  | privilegedOperation
  /-- A must-be-zero field is not zero, or `SEL` is not one of the command's forms. -/
  | specification
  deriving DecidableEq, Repr

/-- Formats `F0` and `FS`: nothing live beside `OPC`, `SEL` and `P` (30_encoding.md R103). -/
def formatF0 (f : Fields) : Bool :=
  f.cpu = 0#8 && !f.m && f.cci = 0#2 && f.r1 = 0#4 && f.r3 = 0#4

/-- Format `FC`: `CPU` live, `SEL` zero (30_encoding.md R103). -/
def formatFC (f : Fields) : Bool :=
  f.sel = 0#4 && !f.m && f.cci = 0#2 && f.r1 = 0#4 && f.r3 = 0#4

/-- Formats `FM` and `FX`: `M` live (read as `I` by `FX`) (30_encoding.md R103). -/
def formatFM (f : Fields) : Bool :=
  f.cpu = 0#8 && f.cci = 0#2 && f.r1 = 0#4 && f.r3 = 0#4

/-- Format `FK`: `CCI` live (30_encoding.md R103). -/
def formatFK (f : Fields) : Bool :=
  f.cpu = 0#8 && !f.m && f.r1 = 0#4 && f.r3 = 0#4

/-- Format `FXP`: `M` as `I`, `R1`, `R3` live (30_encoding.md R103). -/
def formatFXP (f : Fields) : Bool :=
  f.cpu = 0#8 && f.cci = 0#2

/-- The command, if the must-be-zero fields are zero. -/
def whenZero (ok : Bool) (i : Instr) : Option Instr :=
  if ok then some i else none

/-- A form selected by `SEL` alone (formats `F0`, `FS`). -/
def formF0 (f : Fields) (i : Instr) : Option Instr :=
  whenZero (formatF0 f) i

/-- The command the fields name, if any: `OPC`, then `SEL`, then the must-be-zero fields
(30_encoding.md R110 to R115). -/
def decodeFields (f : Fields) : Option Instr :=
  match f.opc with
  | 0x01#8 => match f.sel with | 0#4 => formF0 f (.eadd f.p) | _ => none
  | 0x02#8 => match f.sel with | 0#4 => formF0 f (.esub f.p) | _ => none
  | 0x03#8 => match f.sel with | 0#4 => formF0 f (.eshf f.p) | _ => none
  | 0x04#8 => match f.sel with | 0#4 => formF0 f (.e2t f.p) | _ => none
  | 0x05#8 => match f.sel with | 0#4 => formF0 f (.t2e f.p) | _ => none
  | 0x10#8 => match f.sel with
    | 0#4 => formF0 f (.h2e f.p)
    | 1#4 => formF0 f (.h2eF f.p)
    | _ => none
  | 0x11#8 => match f.sel with | 0#4 => formF0 f (.hclk f.p) | _ => none
  | 0x20#8 => match f.sel with | 0#4 => formF0 f (.csrrst f.p) | _ => none
  | 0x21#8 => match f.sel with
    | 0#4 => formF0 f (.setrateF f.p)
    | 1#4 => formF0 f (.setrateG f.p)
    | _ => none
  | 0x22#8 => match f.sel with
    | 0#4 => formF0 f (.getrateF f.p)
    | 1#4 => formF0 f (.getrateG f.p)
    | 2#4 => formF0 f (.getrateT f.p)
    | _ => none
  | 0x23#8 => match f.sel with | 0#4 => formF0 f (.fetch f.p) | _ => none
  | 0x24#8 => match f.sel with | 0#4 => formF0 f (.setclk f.p) | _ => none
  | 0x25#8 => match f.sel with | 0#4 => formF0 f (.adjoff f.p) | _ => none
  | 0x26#8 => match f.sel with | 0#4 => formF0 f (.update f.p) | _ => none
  | 0x27#8 => whenZero (formatFC f) (.getepo f.p f.cpu)
  | 0x28#8 => whenZero (formatFC f) (.setepo f.p f.cpu)
  | 0x29#8 => whenZero (formatFC f) (.todclk f.p f.cpu)
  | 0x2C#8 => match f.sel with
    | 0#4 => formF0 f (.rdcsrSt f.p)
    | 1#4 => formF0 f (.rdcsrBo f.p)
    | 2#4 => formF0 f (.rdcsrTv f.p)
    | _ => none
  | 0x30#8 => whenZero (formatFC f) (.getcpt f.p f.cpu)
  | 0x31#8 => whenZero (formatFC f) (.setcpt f.p f.cpu)
  | 0x32#8 => whenZero (formatFC f) (.cptpnd f.p f.cpu)
  | 0x33#8 => whenZero (formatFC f) (.getit f.p f.cpu)
  | 0x34#8 => whenZero (formatFC f) (.setit f.p f.cpu)
  | 0x35#8 => match f.sel with | 0#4 => formF0 f (.it2e f.p) | _ => none
  | 0x36#8 => match f.sel with | 0#4 => formF0 f (.e2it f.p) | _ => none
  | 0x40#8 => match f.sel with
    | 0#4 => formF0 f (.lockR f.p)
    | 1#4 => formF0 f (.lockP f.p)
    | 2#4 => formF0 f (.lockS f.p)
    | _ => none
  | 0x41#8 => match f.sel with
    | 0#4 => formF0 f (.trylockR f.p)
    | 1#4 => formF0 f (.trylockP f.p)
    | 2#4 => formF0 f (.trylockS f.p)
    | _ => none
  | 0x42#8 => match f.sel with
    | 0#4 => formF0 f (.unlockR f.p)
    | 1#4 => formF0 f (.unlockP f.p)
    | 2#4 => formF0 f (.unlockS f.p)
    | _ => none
  | 0x43#8 => match f.sel with | 0#4 => formF0 f (.gacq f.p) | _ => none
  | 0x44#8 => match f.sel with | 0#4 => formF0 f (.grel f.p) | _ => none
  | 0x45#8 => match f.sel with
    | 2#4 => whenZero (formatFM f) (.casW f.p f.m)
    | 3#4 => whenZero (formatFM f) (.casG f.p f.m)
    | 4#4 => whenZero (formatFXP f) (.casQ f.p f.m f.r1 f.r3)
    | 5#4 => whenZero (formatFXP f) (.casD f.p f.m f.r1 f.r3)
    | _ => none
  | 0x50#8 => match f.sel with | 0#4 => whenZero (formatFM f) (.agl f.p f.m) | _ => none
  | 0x51#8 => match f.sel with | 0#4 => whenZero (formatFM f) (.sgl f.p f.m) | _ => none
  | 0x52#8 => match f.sel with | 0#4 => whenZero (formatFK f) (.alcgl f.p f.cci) | _ => none
  | 0x53#8 => match f.sel with | 0#4 => whenZero (formatFK f) (.slbgl f.p f.cci) | _ => none
  | 0x54#8 => match f.sel with | 0#4 => whenZero (formatFM f) (.slagl f.p f.m) | _ => none
  | 0x55#8 => match f.sel with | 0#4 => formF0 f (.bctgl f.p) | _ => none
  | 0x56#8 => match f.sel with | 0#4 => formF0 f (.brctgl f.p) | _ => none
  | _ => none

/-- The operation codes of family 5 (30_encoding.md R115). -/
def opcLong (opc : BitVec 8) : Bool :=
  decide (0x50 ≤ opc.toNat) && decide (opc.toNat ≤ 0x56)

/-- The operation codes of families 0 to 4 that name a command; `0x2A` and `0x2B` are reserved
(30_encoding.md R110 to R114, R120). -/
def opcShort : List Nat :=
  [0x01, 0x02, 0x03, 0x04, 0x05, 0x10, 0x11,
   0x20, 0x21, 0x22, 0x23, 0x24, 0x25, 0x26, 0x27, 0x28, 0x29, 0x2C,
   0x30, 0x31, 0x32, 0x33, 0x34, 0x35, 0x36,
   0x40, 0x41, 0x42, 0x43, 0x44, 0x45]

/-- `OPC` is assigned (30_encoding.md R120, R121 item 1). -/
def opcAssigned (hasLong : Bool) (opc : BitVec 8) : Bool :=
  opcShort.contains opc.toNat || (hasLong && opcLong opc)

/-- `OPC` is a privileged command's: `CSRRST`, `SETRATE`, `SETCLK`, `ADJOFF`, `SETEPO`, `SETCPT`
(60_exceptions.md R330). -/
def opcPrivileged (opc : BitVec 8) : Bool :=
  [0x20, 0x21, 0x24, 0x25, 0x28, 0x31].contains opc.toNat

/-- The decoder: operation, then privilege, then the fields (30_encoding.md R121). -/
def decode (hasLong : Bool) (w : CmdWord) : Except Rejection Instr :=
  let f := unpackFields w
  if !opcAssigned hasLong f.opc then .error .operation
  else match decodeFields f with
    | some i => .ok i
    | none =>
      if opcPrivileged f.opc && !f.p then .error .privilegedOperation
      else .error .specification

/-- The row's instruction as the host's table numbers bits; a command word has 32 (R122). -/
def decodeTableWord (nbits w : Nat) : Option Instr :=
  match decode true (BitVec.ofNat 32 (w % 2 ^ nbits)) with
  | .ok i => some i
  | .error _ => none

/-! The encoder, from the same tables (30_encoding.md R103, R110 to R115). -/

/-- Fields with `OPC`, `SEL` and `P` alone (formats `F0`, `FS`). -/
def fieldsFS (opc : BitVec 8) (sel : BitVec 4) (p : Bool) : Fields :=
  ⟨opc, 0#8, sel, p, false, 0#2, 0#4, 0#4⟩

/-- Fields of format `FC`. -/
def fieldsFC (opc : BitVec 8) (p : Bool) (cpu : BitVec 8) : Fields :=
  ⟨opc, cpu, 0#4, p, false, 0#2, 0#4, 0#4⟩

/-- Fields of formats `FM`, `FX` and `FXP`. -/
def fieldsFX (opc : BitVec 8) (sel : BitVec 4) (p m : Bool) (r1 r3 : BitVec 4) : Fields :=
  ⟨opc, 0#8, sel, p, m, 0#2, r1, r3⟩

/-- Fields of format `FK`. -/
def fieldsFK (opc : BitVec 8) (p : Bool) (cci : BitVec 2) : Fields :=
  ⟨opc, 0#8, 0#4, p, false, cci, 0#4, 0#4⟩

/-- The fields of a command, one arm per constructor. -/
def encodeFields : Instr → Fields
  | .eadd p => fieldsFS 0x01#8 0#4 p
  | .esub p => fieldsFS 0x02#8 0#4 p
  | .eshf p => fieldsFS 0x03#8 0#4 p
  | .e2t p => fieldsFS 0x04#8 0#4 p
  | .t2e p => fieldsFS 0x05#8 0#4 p
  | .h2e p => fieldsFS 0x10#8 0#4 p
  | .h2eF p => fieldsFS 0x10#8 1#4 p
  | .hclk p => fieldsFS 0x11#8 0#4 p
  | .csrrst p => fieldsFS 0x20#8 0#4 p
  | .setrateF p => fieldsFS 0x21#8 0#4 p
  | .setrateG p => fieldsFS 0x21#8 1#4 p
  | .getrateF p => fieldsFS 0x22#8 0#4 p
  | .getrateG p => fieldsFS 0x22#8 1#4 p
  | .getrateT p => fieldsFS 0x22#8 2#4 p
  | .fetch p => fieldsFS 0x23#8 0#4 p
  | .setclk p => fieldsFS 0x24#8 0#4 p
  | .adjoff p => fieldsFS 0x25#8 0#4 p
  | .update p => fieldsFS 0x26#8 0#4 p
  | .getepo p cpu => fieldsFC 0x27#8 p cpu
  | .setepo p cpu => fieldsFC 0x28#8 p cpu
  | .todclk p cpu => fieldsFC 0x29#8 p cpu
  | .rdcsrSt p => fieldsFS 0x2C#8 0#4 p
  | .rdcsrBo p => fieldsFS 0x2C#8 1#4 p
  | .rdcsrTv p => fieldsFS 0x2C#8 2#4 p
  | .getcpt p cpu => fieldsFC 0x30#8 p cpu
  | .setcpt p cpu => fieldsFC 0x31#8 p cpu
  | .cptpnd p cpu => fieldsFC 0x32#8 p cpu
  | .getit p cpu => fieldsFC 0x33#8 p cpu
  | .setit p cpu => fieldsFC 0x34#8 p cpu
  | .it2e p => fieldsFS 0x35#8 0#4 p
  | .e2it p => fieldsFS 0x36#8 0#4 p
  | .lockR p => fieldsFS 0x40#8 0#4 p
  | .lockP p => fieldsFS 0x40#8 1#4 p
  | .lockS p => fieldsFS 0x40#8 2#4 p
  | .trylockR p => fieldsFS 0x41#8 0#4 p
  | .trylockP p => fieldsFS 0x41#8 1#4 p
  | .trylockS p => fieldsFS 0x41#8 2#4 p
  | .unlockR p => fieldsFS 0x42#8 0#4 p
  | .unlockP p => fieldsFS 0x42#8 1#4 p
  | .unlockS p => fieldsFS 0x42#8 2#4 p
  | .gacq p => fieldsFS 0x43#8 0#4 p
  | .grel p => fieldsFS 0x44#8 0#4 p
  | .casW p i => fieldsFX 0x45#8 2#4 p i 0#4 0#4
  | .casG p i => fieldsFX 0x45#8 3#4 p i 0#4 0#4
  | .casQ p i r1 r3 => fieldsFX 0x45#8 4#4 p i r1 r3
  | .casD p i r1 r3 => fieldsFX 0x45#8 5#4 p i r1 r3
  | .agl p m => fieldsFX 0x50#8 0#4 p m 0#4 0#4
  | .sgl p m => fieldsFX 0x51#8 0#4 p m 0#4 0#4
  | .alcgl p cci => fieldsFK 0x52#8 p cci
  | .slbgl p cci => fieldsFK 0x53#8 p cci
  | .slagl p m => fieldsFX 0x54#8 0#4 p m 0#4 0#4
  | .bctgl p => fieldsFS 0x55#8 0#4 p
  | .brctgl p => fieldsFS 0x56#8 0#4 p

/-- The encoder: the command word of a command. -/
def encode (i : Instr) : CmdWord :=
  packFields (encodeFields i)

/-! The opcode table: the mask and the match value of each row (30_encoding.md R103). -/

/-- The mask of formats `F0` and `FS`. -/
def maskF0 : CmdWord := 0xFFFFF7FF#32

/-- The mask of format `FC`. -/
def maskFC : CmdWord := 0xFF00F7FF#32

/-- The mask of formats `FM` and `FX`. -/
def maskFM : CmdWord := 0xFFFFF3FF#32

/-- The mask of format `FK`. -/
def maskFK : CmdWord := 0xFFFFF4FF#32

/-- The mask of format `FXP`. -/
def maskFXP : CmdWord := 0xFFFFF300#32

/-- The row of spec/opcode_table.json a constructor stands for: its mask and its match value. -/
def opcodeRow : Instr → CmdWord × CmdWord
  | .eadd _ => (maskF0, 0x01000000#32)
  | .esub _ => (maskF0, 0x02000000#32)
  | .eshf _ => (maskF0, 0x03000000#32)
  | .e2t _ => (maskF0, 0x04000000#32)
  | .t2e _ => (maskF0, 0x05000000#32)
  | .h2e _ => (maskF0, 0x10000000#32)
  | .h2eF _ => (maskF0, 0x10001000#32)
  | .hclk _ => (maskF0, 0x11000000#32)
  | .csrrst _ => (maskF0, 0x20000000#32)
  | .setrateF _ => (maskF0, 0x21000000#32)
  | .setrateG _ => (maskF0, 0x21001000#32)
  | .getrateF _ => (maskF0, 0x22000000#32)
  | .getrateG _ => (maskF0, 0x22001000#32)
  | .getrateT _ => (maskF0, 0x22002000#32)
  | .fetch _ => (maskF0, 0x23000000#32)
  | .setclk _ => (maskF0, 0x24000000#32)
  | .adjoff _ => (maskF0, 0x25000000#32)
  | .update _ => (maskF0, 0x26000000#32)
  | .getepo _ _ => (maskFC, 0x27000000#32)
  | .setepo _ _ => (maskFC, 0x28000000#32)
  | .todclk _ _ => (maskFC, 0x29000000#32)
  | .rdcsrSt _ => (maskF0, 0x2C000000#32)
  | .rdcsrBo _ => (maskF0, 0x2C001000#32)
  | .rdcsrTv _ => (maskF0, 0x2C002000#32)
  | .getcpt _ _ => (maskFC, 0x30000000#32)
  | .setcpt _ _ => (maskFC, 0x31000000#32)
  | .cptpnd _ _ => (maskFC, 0x32000000#32)
  | .getit _ _ => (maskFC, 0x33000000#32)
  | .setit _ _ => (maskFC, 0x34000000#32)
  | .it2e _ => (maskF0, 0x35000000#32)
  | .e2it _ => (maskF0, 0x36000000#32)
  | .lockR _ => (maskF0, 0x40000000#32)
  | .lockP _ => (maskF0, 0x40001000#32)
  | .lockS _ => (maskF0, 0x40002000#32)
  | .trylockR _ => (maskF0, 0x41000000#32)
  | .trylockP _ => (maskF0, 0x41001000#32)
  | .trylockS _ => (maskF0, 0x41002000#32)
  | .unlockR _ => (maskF0, 0x42000000#32)
  | .unlockP _ => (maskF0, 0x42001000#32)
  | .unlockS _ => (maskF0, 0x42002000#32)
  | .gacq _ => (maskF0, 0x43000000#32)
  | .grel _ => (maskF0, 0x44000000#32)
  | .casW _ _ => (maskFM, 0x45002000#32)
  | .casG _ _ => (maskFM, 0x45003000#32)
  | .casQ _ _ _ _ => (maskFXP, 0x45004000#32)
  | .casD _ _ _ _ => (maskFXP, 0x45005000#32)
  | .agl _ _ => (maskFM, 0x50000000#32)
  | .sgl _ _ => (maskFM, 0x51000000#32)
  | .alcgl _ _ => (maskFK, 0x52000000#32)
  | .slbgl _ _ => (maskFK, 0x53000000#32)
  | .slagl _ _ => (maskFM, 0x54000000#32)
  | .bctgl _ => (maskF0, 0x55000000#32)
  | .brctgl _ => (maskF0, 0x56000000#32)

end Sys2Proof
end

