-- ==== Sys2Proof/Machine/Defaults.lean ====
section
/-! DEFINITION. The configuration State.reset stands in: the defaults of spec/00_scope.md R6, and for
its OPEN parameters the values the vectors of spec/95_test_vectors.md use (DESIGN CHOICE, log entry 2). -/

namespace Sys2Proof.Machine

/-- The defaults of 00_scope.md R6. OPEN there, and so a DESIGN CHOICE (log entry 2): `NCPU`, `NPORT`,
`SKAIP_MASK`, `SCA_IPTE_LOCK`, `USE_SKAIP_AS_LOCK`, `PGSTE_RCP_OFFSET` (the vectors' values) and
`ICPT_CS_REASON` (a free value) and `AccessCheck` (any verdict per call). -/
def defaultConfig : Config where
  ncpu := 2
  nport := 3
  precisionBits := 128
  hostRes := .ns
  epoch1970Us := 2208988800000000
  rateFracBits := 44
  todClockMask := 0x00FFFFFFFFFFFFFF#64
  cptShift := 8
  rcpLock := 0x80#8
  rcpHref := 0x40#8
  rcpHch := 0x20#8
  rcpGref := 0x04#8
  rcpGch := 0x02#8
  skaipMask := 0x80#8
  scaIpteLock := 0x80#8
  useSkaipAsLock := false
  pgsteRcpOffset := 1
  keyShift := 12
  hasLong := true
  icptCsReason := Config.openIcptReason
  accessCheck := .perCall

end Sys2Proof.Machine
end

