-- ==== Sys2Proof/Machine/HostClock.lean ====
section
/-! DEFINITION. Host time to `ETOD`: spec/41_host_time.md R161, R162, R166. -/

namespace Sys2Proof.Machine

/-- What the host delivers at the configured resolution: with `HOST_RES = US` the nanosecond field is a
microsecond count times 1000 (41_host_time.md R161; DEDUCED, log entry 4). -/
def deliverSample (c : Config) (h : HostSample) : HostSample :=
  match c.hostRes with
  | .ns => h
  | .us => { h with nsec := BitVec.ofNat 32 (h.nsec.toNat / 1000 * 1000) }

/-- The exact time `V` of 41_host_time.md R162, in units of 2^-68 microsecond. -/
def exactTime (c : Config) (sec : Word) (nsec : BitVec 32) (fail : Bool) : Int :=
  let n := if fail then 0 else nsec.toNat
  (c.epoch1970Us + (sec.toNat * 1000000 : Nat)) * 2 ^ 68 + (n * 2 ^ 65 / 125 : Nat)

/-- Keep the `K` top bits of the 128, the rest 0 (41_host_time.md R162, R164). -/
def keepTopBits (k : Nat) (v : Int) : Int :=
  v / 2 ^ (128 - k) * 2 ^ (128 - k)

/-- `H2E(sec, nsec, fail)` (41_host_time.md R162, R166). -/
def hostToEtod (c : Config) (sec : Word) (nsec : BitVec 32) (fail : Bool) : Wide :=
  BitVec.ofInt 128 (keepTopBits c.precisionBits (exactTime c sec nsec fail))

/-- `H2E` of a host sample (41_host_time.md R163). -/
def sampleToEtod (c : Config) (h : HostSample) : Wide :=
  hostToEtod c h.sec h.nsec h.fail

end Sys2Proof.Machine
end

