-- ==== Sys2Proof/Machine/State.lean ====
section
/-! DEFINITION. The state of one CKU instance as plain data (spec/10_state.md R20 to R49), the request
and response records (spec/30_encoding.md R100, R101), and reset (spec/70_reset_and_hazards.md R350). -/

namespace Sys2Proof.Machine

/-- A request `{CW, AD, A, B}` (30_encoding.md R100). -/
structure Request where
  cw : CmdWord
  ad : Word
  a : Wide
  b : Wide
  deriving DecidableEq, Repr, Inhabited

/-- The four ways a command ends, field `ST` (30_encoding.md R101, 60_exceptions.md R310). -/
inductive Status where
  | done
  | busy
  | pgm
  | icpt
  deriving DecidableEq, Repr, Inhabited

/-- A response `{ST, PIC, CC, CCV, TK, R}` (30_encoding.md R101). -/
structure Response where
  st : Status
  pic : Pic
  cc : BitVec 2
  ccv : Bool
  tk : Bool
  r : Wide
  deriving DecidableEq, Repr, Inhabited

/-- A requester port. `requests`: the commands it issues, in order, the head the outstanding one.
`held`: the outstanding command waits in a `hold until` (10_state.md R46). `response`: the answer to its
latest command, `none` before the first answer and while a command is held. -/
structure Port where
  requests : List Request
  held : Bool
  response : Option Response
  deriving DecidableEq, Repr, Inhabited

/-- The steering state `csr` (10_state.md R27 to R31). -/
structure Csr where
  startTime : Word
  baseOffset : Word
  fineRate : BitVec 32
  grossRate : BitVec 32
  deriving DecidableEq, Repr, Inhabited

/-- One per-CPU slot (10_state.md R35 to R38). -/
structure Cpu where
  todEpoch : Word
  cptBase : Word
  cptArmed : Bool
  cptPending : Bool
  itBase : Word
  deriving DecidableEq, Repr, Inhabited

/-- The coarse lock `glock` (10_state.md R39). -/
inductive GLock where
  | free
  | held (p : Nat)
  deriving DecidableEq, Repr, Inhabited

/-- The two storage-key flags of a frame, `key_rc[f]` (10_state.md R44). -/
structure KeyFlags where
  r : Bool
  c : Bool
  deriving DecidableEq, Repr, Inhabited

/-- The events a history records (20_memory.md R86). -/
inductive Event where
  | rmw (p : Nat) (addr : Word) (n : Nat) (old new : Wide) (wrote : Bool)
  | ser (p : Nat)
  | acq (p : Nat)
  | rel (p : Nat)
  | host (h : HostSample)
  deriving DecidableEq, Repr

/-- The shared memory: the bytes that differ from `Memory.unlisted`, by rising address
(20_memory.md R70). -/
abbrev Memory := List Host.Cell

/-- The storage-key flags: the frames whose flags are not both clear, by rising frame (10_state.md R44). -/
abbrev KeyStore := List (Nat × KeyFlags)

/-- What a byte of `mem` that nothing has written reads as (DESIGN CHOICE, log entry 9). -/
def Memory.unlisted : Byte := 0#8

/-- The flags of a frame that nothing has marked (DESIGN CHOICE, log entry 10). -/
def KeyStore.unlisted : KeyFlags := ⟨false, false⟩

/-- The canonical form of a sparse store: keys strictly rising and below `bound`, no entry equal to what
an unlisted key reads as. -/
def sparseWf {α : Type} [DecidableEq α] (unlisted : α) (bound : Nat) : List (Nat × α) → Bool
  | [] => true
  | [e] => decide (e.1 < bound) && decide (e.2 ≠ unlisted)
  | e :: f :: rest =>
    decide (e.1 < f.1) && decide (e.2 ≠ unlisted) && sparseWf unlisted bound (f :: rest)

/-- The canonical form of `mem`. -/
def Memory.wf (m : Memory) : Bool := sparseWf Memory.unlisted (2 ^ 64) m

/-- The canonical form of `key_rc`, with `2^(64-KEY_SHIFT)` frames (10_state.md R20). -/
def KeyStore.wf (keyShift : Nat) (m : KeyStore) : Bool :=
  sparseWf KeyStore.unlisted (2 ^ (64 - keyShift)) m

/-- Everything the spec gives the machine (10_state.md R20, R46, R49) and, after it, what a
deterministic step must be given (10_state.md R47; log entries 1, 3, 5, 6, 7, 12). -/
structure State where
  /-- `csr` (10_state.md R27). -/
  csr : Csr
  /-- `tod_value` (10_state.md R34). -/
  todValue : Wide
  /-- The per-CPU slots, `NCPU` of them (10_state.md R35 to R38). -/
  cpus : List Cpu
  /-- `glock` (10_state.md R39). -/
  glock : GLock
  /-- `mem` (10_state.md R45). -/
  mem : Memory
  /-- `key_rc` (10_state.md R44). -/
  keyRc : KeyStore
  /-- The requester ports, `NPORT` of them (30_encoding.md R100, R101; 10_state.md R46). -/
  ports : List Port
  /-- The events so far, newest first (20_memory.md R86). -/
  history : List Event
  /-- The parameters of the block (00_scope.md R6), written by no command. -/
  cfg : Config
  /-- The port whose command the current step runs (the model's own). -/
  active : Nat
  /-- The host samples to come, next first (the model's own). -/
  hostQueue : List HostSample
  /-- The access verdicts to come, next first (the model's own). -/
  verdicts : List Verdict
  /-- The ports that step next, next first (the model's own). -/
  schedule : List Nat
  /-- The index of the next free value (the model's own). -/
  draws : Nat
  deriving DecidableEq, Repr

/-- Why the machine stops. It has no constructor: the block has no unrecoverable error, machine check
or halt (60_exceptions.md R324); every command ends with a response or is held. -/
inductive Fault where
  deriving DecidableEq, Repr

/-- Why an instruction has no meaning. -/
inductive Refusal where
  /-- Raised by an arm of `exec` whose instruction has no meaning yet; no arm raises it. Safe: the run
  stops where the hardware goes on. -/
  | notModelled (mnemonic : String)
  deriving DecidableEq, Repr

/-- A per-CPU slot after reset, with the host time `h0` (10_state.md R48). -/
def resetCpu (h0 : Wide) : Cpu where
  todEpoch := 0#64
  cptBase := etodHigh h0
  cptArmed := true
  cptPending := false
  itBase := etodHigh h0

/-- A port after reset: no request, nothing held, no response (70_reset_and_hazards.md R352). -/
def resetPort : Port where
  requests := []
  held := false
  response := none

/-- Cold start in the configuration `c` with the host sample `h` drawn at the reset instant
(70_reset_and_hazards.md R350, 10_state.md R48). -/
def State.resetAt (c : Config) (h : HostSample) : State where
  csr := ⟨etodHigh (sampleToEtod c (deliverSample c h)), 0#64, 0#32, 0#32⟩
  todValue := sampleToEtod c (deliverSample c h)
  cpus := List.replicate c.ncpu (resetCpu (sampleToEtod c (deliverSample c h)))
  glock := .free
  mem := []
  keyRc := []
  ports := List.replicate c.nport resetPort
  history := [.host (deliverSample c h)]
  cfg := c
  active := 0
  hostQueue := []
  verdicts := []
  schedule := []
  draws := 0

/-- The machine after reset: cold start in the default configuration, the host's answer a free value. -/
def State.reset : State := State.resetAt defaultConfig Config.resetSample

end Sys2Proof.Machine
end

