-- ==== Sys2Proof/Machine/Ops.lean ====
section
/-! DEFINITION. The named operations over the state: sparse stores, `MemRead` and `MemWrite`
(spec/20_memory.md R74), `SetRC` (spec/44_sync.md R248), the end of a command (spec/00_scope.md R9),
taking a program interrupt (spec/60_exceptions.md R322), `hold until`, and the draws. -/

namespace Sys2Proof.Machine

/-! ### Sparse stores -/

/-- What a sparse store holds at a key. -/
def sparseGet {α : Type} (unlisted : α) : List (Nat × α) → Nat → α
  | [], _ => unlisted
  | (k, v) :: rest, a => if k = a then v else sparseGet unlisted rest a

/-- A sparse store with one key set, in canonical form. -/
def sparseSet {α : Type} [DecidableEq α] (unlisted : α) : List (Nat × α) → Nat → α → List (Nat × α)
  | [], a, v => if v = unlisted then [] else [(a, v)]
  | (k, x) :: rest, a, v =>
    if a < k then (if v = unlisted then (k, x) :: rest else (a, v) :: (k, x) :: rest)
    else if a = k then (if v = unlisted then rest else (a, v) :: rest)
    else (k, x) :: sparseSet unlisted rest a v

/-! ### Memory -/

/-- One byte of memory (20_memory.md R70). -/
def memByte (m : Memory) (a : Word) : Byte :=
  sparseGet Memory.unlisted m a.toNat

/-- Memory with one byte stored. -/
def memSetByte (m : Memory) (a : Word) (v : Byte) : Memory :=
  sparseSet Memory.unlisted m a.toNat v

/-- The `n` bytes from `a` on as one number, the byte at `a` the most significant (20_memory.md R74). -/
def memReadNat (m : Memory) (a : Word) : Nat → Nat
  | 0 => 0
  | n + 1 => memReadNat m a n * 256 + (memByte m (a + BitVec.ofNat 64 n)).toNat

/-- `MemRead(addr, n)` on a 128-bit bus (20_memory.md R74). -/
def memRead (m : Memory) (a : Word) (n : Nat) : Wide :=
  BitVec.ofNat 128 (memReadNat m a n)

/-- `MemWrite(addr, n, v)`: `v[7:0]` at `a + n - 1`, up to `v[8n-1:8n-8]` at `a` (20_memory.md R74). -/
def memWrite (m : Memory) (a : Word) : Nat → Wide → Memory
  | 0, _ => m
  | n + 1, v => memSetByte (memWrite m a n (v >>> 8)) (a + BitVec.ofNat 64 n) (v.setWidth 8)

/-- The byte of memory a state holds at an address. -/
def State.byteAt (s : State) (a : Word) : Byte := memByte s.mem a

/-! ### Reference and change -/

/-- The frame an address lies in, `addr >> KEY_SHIFT` (10_state.md R44). -/
def frameOf (c : Config) (a : Word) : Nat := (a >>> c.keyShift).toNat

/-- The flags of a frame (10_state.md R44). -/
def State.keyFlags (s : State) (f : Nat) : KeyFlags :=
  sparseGet KeyStore.unlisted s.keyRc f

/-- `SetRC(addr)`: both flags of the frame are set (44_sync.md R248). -/
def State.setRC (s : State) (a : Word) : State :=
  { s with keyRc := sparseSet KeyStore.unlisted s.keyRc (frameOf s.cfg a) ⟨true, true⟩ }

/-- The reference flag of the frame is set, the change flag kept (44_sync.md R264). -/
def State.setRef (s : State) (a : Word) : State :=
  let f := frameOf s.cfg a
  { s with keyRc := sparseSet KeyStore.unlisted s.keyRc f ⟨true, (s.keyFlags f).c⟩ }

/-! ### Events -/

/-- Add an event to the history (20_memory.md R86). -/
def State.record (s : State) (e : Event) : State := { s with history := e :: s.history }

/-- `Serialize(p)`, recorded as an event of the issuing port (20_memory.md R84). -/
def State.serialize (s : State) : State := s.record (.ser s.active)

/-- One read-modify-write of `n` bytes at `a` by the issuing port, with its event
(20_memory.md R77, R78, R86). -/
def State.storeRmw (s : State) (a : Word) (n : Nat) (old new : Wide) : State :=
  { s with mem := memWrite s.mem a n new, history := .rmw s.active a n old new true :: s.history }

/-- A read-modify-write that stores nothing: its event alone (20_memory.md R77, R86). -/
def State.readRmw (s : State) (a : Word) (n : Nat) (old : Wide) : State :=
  s.record (.rmw s.active a n old old false)

/-! ### The ports -/

/-- A port's outstanding request; a port with none has the zero request. -/
def Port.outstanding (p : Port) : Request := p.requests.headD ⟨0#32, 0#64, 0#128, 0#128⟩

/-- A port as the state holds it; a port the block has not is the reset port. -/
def State.portAt (s : State) (p : Nat) : Port := s.ports.getD p resetPort

/-- The request the current step runs: the issuing port's outstanding one (30_encoding.md R100). -/
def State.request (s : State) : Request := (s.portAt s.active).outstanding

/-- The issuing port's command was held before this step (10_state.md R46). -/
def State.wasHeld (s : State) : Bool := (s.portAt s.active).held

/-- A port whose outstanding command ends with a response (00_scope.md R9 `respond`). -/
def Port.answer (r : Response) (p : Port) : Port where
  requests := p.requests.tail
  held := false
  response := some r

/-- A port whose outstanding command waits (00_scope.md R9 `hold until`). -/
def Port.wait (p : Port) : Port where
  requests := p.requests
  held := true
  response := none

/-- The current command ends with a response (00_scope.md R9 `respond`). -/
def State.complete (s : State) (r : Response) : State :=
  { s with ports := s.ports.modify s.active (Port.answer r) }

/-- The current command has no step: its port waits (00_scope.md R9 `hold until`, 60_exceptions.md R341). -/
def State.hold (s : State) : State :=
  { s with ports := s.ports.modify s.active Port.wait }

/-- `ST = DONE`, every other field 0 (00_scope.md R9, 30_encoding.md R101). -/
def Response.ok : Response where
  st := .done
  pic := 0#16
  cc := 0#2
  ccv := false
  tk := false
  r := 0#128

/-- `ST = BUSY`, every other field 0 (30_encoding.md R101). -/
def Response.busy : Response := { Response.ok with st := .busy }

/-- `ST = DONE` with a 128-bit result. -/
def Response.value (v : Wide) : Response := { Response.ok with r := v }

/-- `ST = DONE` with a 64-bit result in `R[63:0]`. -/
def Response.word (v : Word) : Response := Response.value (wideOfWord v)

/-- The two bits of `ST` (30_encoding.md R101). -/
def Status.code : Status → BitVec 2
  | .done => 0#2
  | .busy => 1#2
  | .pgm => 2#2
  | .icpt => 3#2

/-! ### Program interrupts -/

/-- The kinds of program interrupt (60_exceptions.md R311). -/
inductive PgmCode where
  | operation
  | privilegedOperation
  | protection
  | addressing
  | specification
  | fixedPointOverflow
  | segmentTranslation
  | pageTranslation
  | translationSpecification
  /-- Raised by no command (60_exceptions.md R316). -/
  | specialOperation
  deriving DecidableEq, Repr

/-- The program-interruption codes (60_exceptions.md R311). -/
def PgmCode.pic : PgmCode → Pic
  | .operation => 0x0001#16
  | .privilegedOperation => 0x0002#16
  | .protection => 0x0004#16
  | .addressing => 0x0005#16
  | .specification => 0x0006#16
  | .fixedPointOverflow => 0x0008#16
  | .segmentTranslation => 0x0010#16
  | .pageTranslation => 0x0011#16
  | .translationSpecification => 0x0012#16
  | .specialOperation => 0x0013#16

/-- The code a verdict of the memory-access layer is reported with, untouched (20_memory.md R80). -/
def accessCode : AccessFault → PgmCode
  | .protection => .protection
  | .addressing => .addressing
  | .segmentTranslation => .segmentTranslation
  | .pageTranslation => .pageTranslation
  | .translationSpecification => .translationSpecification

/-- The interrupt a rejected command word is reported with (30_encoding.md R120, R121). -/
def rejectionCode : Rejection → PgmCode
  | .operation => .operation
  | .privilegedOperation => .privilegedOperation
  | .specification => .specification

/-- A response with `ST = PGM` and a code over what the command completed. -/
def Response.interrupt (c : PgmCode) (carried : Response) : Response :=
  { carried with st := .pgm, pic := c.pic }

/-- TAKING A PROGRAM INTERRUPT, the one shared operation: the whole of trap entry is the response record
with `ST = PGM` and the code; the block saves nothing, switches no mode and transfers control nowhere
(60_exceptions.md R322). `carried` holds what the command completed before it: nothing for the
suppressing kinds, the result for fixed-point overflow (R317). There is no return from one (R323). -/
def State.takeInterrupt (s : State) (c : PgmCode) (carried : Response) : State :=
  s.complete (Response.interrupt c carried)

/-- `raise Pgm(code)`: a suppressing interrupt, every other field 0 (00_scope.md R9, 30_encoding.md R101). -/
def State.raisePgm (s : State) (c : PgmCode) : State :=
  s.takeInterrupt c Response.ok

/-- A privileged command runs with `P = 1` and takes the privileged-operation interrupt otherwise
(60_exceptions.md R330). -/
def State.privileged (s : State) (p : Bool) (run : State → State) : State :=
  if p then run s else s.raisePgm .privilegedOperation

/-- A command of family 5 runs only when the family is present (30_encoding.md R115, R120). -/
def State.longForm (s : State) (run : State → State) : State :=
  if s.cfg.hasLong then run s else s.raisePgm .operation

/-! ### Per-CPU slots -/

/-- The slot `c`; a slot the block has not reads as one at reset with host time 0. -/
def State.slot (s : State) (c : BitVec 8) : Cpu := s.cpus.getD c.toNat (resetCpu 0#128)

/-- Slot `c` changed, the others kept. -/
def State.onSlot (s : State) (c : BitVec 8) (f : Cpu → Cpu) : State :=
  { s with cpus := s.cpus.modify c.toNat f }

/-- A command of format `FC` runs on a slot that exists, `CPU < NCPU`, and takes the specification
interrupt otherwise (30_encoding.md R120); `NCPU` is the number of slots. -/
def State.withSlot (s : State) (c : BitVec 8) (run : State → State) : State :=
  if c.toNat < s.cpus.length then run s else s.raisePgm .specification

/-! ### Draws -/

/-- `HostSample()`: the sample the host presents next, else a free value (41_host_time.md R161). -/
def State.hostSample (s : State) : HostSample :=
  deliverSample s.cfg (match s.hostQueue with
    | h :: _ => h
    | [] => Config.hostSample s.draws)

/-- The state after `HostSample()` is drawn, with its event (20_memory.md R86). -/
def State.sampled (s : State) : State :=
  { s with
    hostQueue := s.hostQueue.tail
    draws := if s.hostQueue.isEmpty then s.draws + 1 else s.draws
    history := .host s.hostSample :: s.history }

/-- The value of an `AccessCheck` function given by its rules (00_scope.md R6). -/
def accessValue (otherwise : Verdict) (a : Word) (n : Nat) (k : AccessKind) : List AccessRule → Verdict
  | [] => otherwise
  | r :: rest =>
    if r.addr = a ∧ r.bytes = n ∧ r.kind = k then r.verdict else accessValue otherwise a n k rest

/-- A verdict drawn for one call: the one given next, else a free value (93_implementation_defined.md U21). -/
def State.drawnVerdict (s : State) (a : Word) (n : Nat) (k : AccessKind) : Verdict :=
  match s.verdicts with
  | v :: _ => v
  | [] => Config.accessVerdict s.draws a n k

/-- `AccessCheck(addr, n, RMW)`: the configured function's value, else a draw (20_memory.md R80). -/
def State.verdictFor (s : State) (a : Word) (n : Nat) : Verdict :=
  match s.cfg.accessCheck with
  | .perCall => s.drawnVerdict a n .rmw
  | .function rules otherwise => accessValue otherwise a n .rmw rules

/-- The verdicts to come once `AccessCheck` is asked: a draw takes one, a function none. -/
def State.verdictsLeft (s : State) : List Verdict :=
  match s.cfg.accessCheck with
  | .perCall => s.verdicts.tail
  | .function _ _ => s.verdicts

/-- `AccessCheck` asked in this state takes a free value. -/
def State.verdictIsFree (s : State) : Bool :=
  decide (s.cfg.accessCheck = .perCall) && s.verdicts.isEmpty

/-- The state after `AccessCheck` is asked. -/
def State.asked (s : State) : State :=
  { s with
    verdicts := s.verdictsLeft
    draws := if s.verdictIsFree then s.draws + 1 else s.draws }

/-- A memory command asks once, before its access, and on a fault ends with its code and no change
(20_memory.md R80). -/
def State.withAccess (s : State) (a : Word) (n : Nat) (run : State → State) : State :=
  match s.verdictFor a n with
  | .granted => run s.asked
  | .faulted f => s.asked.raisePgm (accessCode f)

end Sys2Proof.Machine
end

