-- ==== Sys2Proof/Machine/Operands.lean ====
section
/-! DEFINITION. Every operand form of the commands, read from the request of the issuing port
(spec/30_encoding.md R104, R105). Bits a command does not use are ignored (R100). -/

namespace Sys2Proof.Machine

/-- `A[127:0]`. -/
def State.opA (s : State) : Wide := s.request.a

/-- `B[127:0]`. -/
def State.opB (s : State) : Wide := s.request.b

/-- `AD`. -/
def State.opAd (s : State) : Word := s.request.ad

/-- `A[127:64]`. -/
def State.opAHigh (s : State) : Word := s.request.a.extractLsb' 64 64

/-- `A[63:0]`. -/
def State.opALow (s : State) : Word := s.request.a.extractLsb' 0 64

/-- `A[31:0]`. -/
def State.opAHalf (s : State) : BitVec 32 := s.request.a.extractLsb' 0 32

/-- `B[63:0]`. -/
def State.opBLow (s : State) : Word := s.request.b.extractLsb' 0 64

/-- The shift amount of `ESHF`, `s32(B[31:0])` (30_encoding.md R105). -/
def State.opEtodShift (s : State) : Int := (s.request.b.extractLsb' 0 32).toInt

/-- The shift amount of `SLAGL`, `u(B[63:0]) mod 64` (30_encoding.md R105). -/
def State.opLongShift (s : State) : Nat := (s.request.b.extractLsb' 0 6).toNat

end Sys2Proof.Machine
end

