-- ==== Sys2Proof/Machine/Arith.lean ====
section
/-! DEFINITION. Family 0, ETOD arithmetic: spec/40_etod_arith.md R140 to R147. None reads or writes
state of the block, none is privileged. -/

namespace Sys2Proof.Machine

/-- The shift by a signed amount: logical right for `n >= 0`, logical left by `|n|` for `n < 0`, all zero
from 128 on (40_etod_arith.md R144). -/
def etodShift (a : Wide) (n : Int) : Wide :=
  if 128 ≤ n.natAbs then 0#128
  else if 0 ≤ n then a >>> n.natAbs
  else a <<< n.natAbs

/-- `ETOD2TOD` (40_etod_arith.md R146). -/
def etodToTod (e : Wide) : Word := (etodHigh e <<< 8) ||| (etodLow e >>> 56)

/-- TOD to ETOD, its zero-filling right inverse (40_etod_arith.md R147). -/
def todToEtod (t : Word) : Wide := mkEtod (t >>> 8) (t <<< 56)

/-- `EADD` (40_etod_arith.md R142). -/
def execEadd (s : State) : Host.Outcome State Fault Refusal :=
  .next (s.complete (Response.value (s.opA + s.opB)))

/-- `ESUB` (40_etod_arith.md R143). -/
def execEsub (s : State) : Host.Outcome State Fault Refusal :=
  .next (s.complete (Response.value (s.opA - s.opB)))

/-- `ESHF` (40_etod_arith.md R144). -/
def execEshf (s : State) : Host.Outcome State Fault Refusal :=
  .next (s.complete (Response.value (etodShift s.opA s.opEtodShift)))

/-- `E2T` (40_etod_arith.md R146). -/
def execE2t (s : State) : Host.Outcome State Fault Refusal :=
  .next (s.complete (Response.word (etodToTod s.opA)))

/-- `T2E` (40_etod_arith.md R147). -/
def execT2e (s : State) : Host.Outcome State Fault Refusal :=
  .next (s.complete (Response.value (todToEtod s.opALow)))

end Sys2Proof.Machine
end

