-- ==== Sys2Proof/Machine/Clock.lean ====
section
/-! DEFINITION. The steered clock: `HostEtod`, `Steer`, `Fetch` and the start of a steering epoch
(spec/41_host_time.md R163, spec/42_steering.md R176, R178, R179, R181, R184, R185). -/

namespace Sys2Proof.Machine

/-- The effective rate `rt`, the integer sum of the two rate registers (42_steering.md R178). -/
def totalRate (x : Csr) : Int := x.fineRate.toInt + x.grossRate.toInt

/-- The adjustment `adj` for a signed elapsed time: the exact product, floored (42_steering.md R178). -/
def steerAdjust (c : Config) (x : Csr) (el : Int) : Int :=
  el * totalRate x / ((2 ^ c.rateFracBits : Nat) : Int)

/-- `Steer(u)` (42_steering.md R178). -/
def steer (c : Config) (x : Csr) (u : Word) : Word :=
  let b := u + x.baseOffset
  b + wordOfInt (steerAdjust c x (b - x.startTime).toInt)

/-- `HostEtod()` of the draw this command makes (41_host_time.md R163). -/
def State.hostEtod (s : State) : Wide := sampleToEtod s.cfg s.hostSample

/-- `Fetch()` of the draw this command makes (42_steering.md R179). -/
def State.fetched (s : State) : Wide :=
  mkEtod (steer s.cfg s.csr (etodHigh s.hostEtod)) (etodLow s.hostEtod)

/-- `now = Fetch().high` of the draw this command makes (43_timers.md R211). -/
def State.now (s : State) : Word := etodHigh s.fetched

/-- The steering state written in one step (70_reset_and_hazards.md R361). -/
def State.setCsr (s : State) (x : Csr) : State := { s with csr := x }

/-- The clock register, all 128 bits in one write, and the slots (10_state.md R34). -/
def State.setClockRegister (s : State) (v : Wide) (cpus : List Cpu) : State :=
  { s with todValue := v, cpus := cpus }

/-- A new steering epoch at the steered value `t`, with the draw this command makes; the rates are kept
(42_steering.md R184). -/
def State.restartEpoch (s : State) (t : Word) : State :=
  s.sampled.setCsr ⟨t, t - etodHigh s.hostEtod, s.csr.fineRate, s.csr.grossRate⟩

/-- The modes of 42_steering.md R176; a label of the rate registers, not state. -/
inductive SteeringMode where
  | unsteered
  | steeringFine
  | steeringGross
  deriving DecidableEq, Repr

/-- The mode the rate registers stand for (42_steering.md R176). -/
def steeringMode (x : Csr) : SteeringMode :=
  if x.grossRate ≠ 0#32 then .steeringGross
  else if x.fineRate ≠ 0#32 then .steeringFine
  else .unsteered

end Sys2Proof.Machine
end

