-- ==== Sys2Proof/Machine/HostTime.lean ====
section
/-! DEFINITION. Family 1, host time to ETOD: spec/41_host_time.md R167, R168. -/

namespace Sys2Proof.Machine

/-- `H2E` (41_host_time.md R167, `SEL = 0`: `fail = 0`). -/
def execH2e (s : State) : Host.Outcome State Fault Refusal :=
  .next (s.complete (Response.value (hostToEtod s.cfg s.opAHigh s.opAHalf false)))

/-- `H2E.F` (41_host_time.md R167, `SEL = 1`: `fail = 1`). -/
def execH2eF (s : State) : Host.Outcome State Fault Refusal :=
  .next (s.complete (Response.value (hostToEtod s.cfg s.opAHigh s.opAHalf true)))

/-- `HCLK` (41_host_time.md R168). -/
def execHclk (s : State) : Host.Outcome State Fault Refusal :=
  .next (s.sampled.complete (Response.value s.hostEtod))

end Sys2Proof.Machine
end

