-- ==== Sys2Proof/Machine/Flags.lean ====
section
/-! DEFINITION. The condition codes and the overflow and carry computations of family 5
(spec/45_long_contracts.md R277, R278, R280 to R283, R290). -/

namespace Sys2Proof.Machine

/-- An exact sum or difference lies outside the signed 64-bit range (45_long_contracts.md R280). -/
def signedOverflow (t : Int) : Bool :=
  decide (t < -(2 ^ 63 : Int)) || decide (t > (2 ^ 63 : Int) - 1)

/-- The condition code of the signed forms (45_long_contracts.md R277, R280). -/
def signedCc (ovf : Bool) (r : Word) : BitVec 2 :=
  if ovf then 3#2
  else if r = 0#64 then 0#2
  else if r.toInt < 0 then 1#2
  else 2#2

/-- The condition code of the logical forms: weight 2 the carry or no-borrow, weight 1 a result that is
not zero (45_long_contracts.md R277). -/
def logicalCc (carry : Bool) (r : Word) : BitVec 2 :=
  BitVec.ofBool carry ++ BitVec.ofBool (decide (r ≠ 0#64))

/-- The preliminary adjustment of `ALCGL`: `a` plus the carry in, and its carry out
(45_long_contracts.md R282). -/
def addCarryIn (a : Word) (c : Bool) : Word × Bool :=
  if c then (a + 1#64, decide (a.toNat = 2 ^ 64 - 1)) else (a, false)

/-- The two-step sum of `ALCGL` and its carry out, the OR of the two carries (45_long_contracts.md R282). -/
def addLogicalCarry (a b : Word) (c : Bool) : Word × Bool :=
  let t := addCarryIn a c
  (t.1 + b, t.2 || decide (2 ^ 64 ≤ t.1.toNat + b.toNat))

/-- The preliminary adjustment of `SLBGL`: `a` less the borrow in, and whether it did not borrow
(45_long_contracts.md R283). -/
def subBorrowIn (a : Word) (bw : Bool) : Word × Bool :=
  if bw then (a - 1#64, decide (1 ≤ a.toNat)) else (a, true)

/-- The two-step difference of `SLBGL` and its no-borrow, the AND of the two (45_long_contracts.md R283). -/
def subLogicalBorrow (a b : Word) (bw : Bool) : Word × Bool :=
  let t := subBorrowIn a bw
  (t.1 - b, t.2 && decide (b.toNat ≤ t.1.toNat))

/-- The shifted numeric field of `SLAGL` before it is cut, `w` (45_long_contracts.md R290). -/
def longShiftWide (a : Word) (n : Nat) : Nat := (a.toNat % 2 ^ 63) * 2 ^ n

/-- The result of `SLAGL`: the sign kept, the 63-bit field cut (45_long_contracts.md R290). -/
def longShiftResult (a : Word) (n : Nat) : Word :=
  BitVec.ofNat 64 ((if a.msb then 2 ^ 63 else 0) + longShiftWide a n % 2 ^ 63)

/-- Some bit shifted out of the field differs from the sign (45_long_contracts.md R290). -/
def longShiftOverflow (a : Word) (n : Nat) : Bool :=
  decide (longShiftWide a n / 2 ^ 63 ≠ if a.msb then 2 ^ n - 1 else 0)

/-- The completed part of a signed form's response (45_long_contracts.md R280). -/
def signedResponse (ovf : Bool) (r : Word) : Response :=
  { Response.word r with cc := signedCc ovf r, ccv := true }

/-- The response of a logical form (45_long_contracts.md R282, R283). -/
def logicalResponse (r : Word × Bool) : Response :=
  { Response.word r.1 with cc := logicalCc r.2 r.1, ccv := true }

/-- A signed form ends: with the fixed-point-overflow interrupt over its completed result when it
overflowed and `M = 1`, else with the result (45_long_contracts.md R278). -/
def State.endSigned (s : State) (m ovf : Bool) (r : Word) : State :=
  if ovf && m then s.takeInterrupt .fixedPointOverflow (signedResponse ovf r)
  else s.complete (signedResponse ovf r)

end Sys2Proof.Machine
end

