-- ==== Sys2Proof/Machine/Long.lean ====
section
/-! DEFINITION. Family 5, the long-operation contracts: spec/45_long_contracts.md R275 to R297. -/

namespace Sys2Proof.Machine

/-- `AGL` (45_long_contracts.md R280). -/
def execAgl (m : Bool) (s : State) : Host.Outcome State Fault Refusal :=
  .next (s.longForm fun s =>
    let t := s.opALow.toInt + s.opBLow.toInt
    s.endSigned m (signedOverflow t) (wordOfInt t))

/-- `SGL` (45_long_contracts.md R281). -/
def execSgl (m : Bool) (s : State) : Host.Outcome State Fault Refusal :=
  .next (s.longForm fun s =>
    let t := s.opALow.toInt - s.opBLow.toInt
    s.endSigned m (signedOverflow t) (wordOfInt t))

/-- `ALCGL`: the carry in is `CCI[1]` (45_long_contracts.md R282). -/
def execAlcgl (cci : BitVec 2) (s : State) : Host.Outcome State Fault Refusal :=
  .next (s.longForm fun s =>
    s.complete (logicalResponse (addLogicalCarry s.opALow s.opBLow (cci.getLsbD 1))))

/-- `SLBGL`: a borrow is pending when `CCI[1] = 0` (45_long_contracts.md R283). -/
def execSlbgl (cci : BitVec 2) (s : State) : Host.Outcome State Fault Refusal :=
  .next (s.longForm fun s =>
    s.complete (logicalResponse (subLogicalBorrow s.opALow s.opBLow (!cci.getLsbD 1))))

/-- `SLAGL` (45_long_contracts.md R290). -/
def execSlagl (m : Bool) (s : State) : Host.Outcome State Fault Refusal :=
  .next (s.longForm fun s =>
    s.endSigned m (longShiftOverflow s.opALow s.opLongShift)
      (longShiftResult s.opALow s.opLongShift))

/-- The response of a branch on count: the decremented count, taken or not, and the next address
(45_long_contracts.md R295, R296). -/
def branchResponse (count next target : Word) : Response :=
  let v := count - 1#64
  let taken := decide (v ≠ 0#64)
  { Response.value (mkEtod (if taken then target else next) v) with tk := taken }

/-- `BCTGL` (45_long_contracts.md R296). -/
def execBctgl (s : State) : Host.Outcome State Fault Refusal :=
  .next (s.longForm fun s =>
    s.complete (branchResponse s.opALow s.opAHigh s.opBLow))

/-- `BRCTGL`: the target is `AD` plus the displacement (45_long_contracts.md R297). -/
def execBrctgl (s : State) : Host.Outcome State Fault Refusal :=
  .next (s.longForm fun s =>
    s.complete (branchResponse s.opALow s.opAHigh (s.opAd + s.opBLow)))

end Sys2Proof.Machine
end

