-- ==== Sys2Proof/Machine/Timer.lean ====
section
/-! DEFINITION. The shared operations of the timers: `CptVal`, `CptSample` and the tick conversions
(spec/43_timers.md R212, R217, R218, R219). -/

namespace Sys2Proof.Machine

/-- `CptVal(c, now)` (43_timers.md R212). -/
def cptVal (shift : Nat) (now : Word) (c : Cpu) : Word := (c.cptBase - now) <<< shift

/-- `CptSample(c, now)`, the sign-flip latch (43_timers.md R219). -/
def cptSample (shift : Nat) (now : Word) (c : Cpu) : Cpu :=
  if !(cptVal shift now c).msb then { c with cptArmed := true }
  else if c.cptArmed then { c with cptPending := true, cptArmed := false }
  else c

/-- Ticks to `hu`: `tdiv(t * 625, 3)` (43_timers.md R217). -/
def ticksToHu (t : BitVec 32) : Int := (t.toInt * 625).tdiv 3

/-- The range of `E2IT`: `|d| <= (2^63 - 1) / 3` (43_timers.md R218). -/
def tickInRange (d : Word) : Bool := decide (d.toInt.natAbs ≤ (2 ^ 63 - 1) / 3)

/-- `hu` to ticks inside the range: `tdiv(d * 3, 625)`, its low 32 bits sign-extended
(43_timers.md R218). -/
def huToTicks (d : Word) : Word := low32Signed ((d.toInt * 3).tdiv 625)

/-- The ticks `E2IT` and `GETIT` answer; outside the range a free value (43_timers.md R218, R221;
93_implementation_defined.md U5; log entry 12). -/
def State.ticksOf (s : State) (d : Word) : Word :=
  if tickInRange d then huToTicks d else Config.tickOverflow s.draws d

/-- The state after that answer: a free value taken is counted. -/
def State.ticksTaken (s : State) (d : Word) : State :=
  { s with draws := if tickInRange d then s.draws else s.draws + 1 }

end Sys2Proof.Machine
end

