-- ==== Sys2Proof/Machine/Steering.lean ====
section
/-! DEFINITION. Family 2, steering and epoch: spec/42_steering.md R180 to R192. -/

namespace Sys2Proof.Machine

/-- `CSRRST` (42_steering.md R180). -/
def execCsrrst (p : Bool) (s : State) : Host.Outcome State Fault Refusal :=
  .next (s.privileged p fun s =>
    (s.sampled.setCsr ⟨etodHigh s.hostEtod, 0#64, 0#32, 0#32⟩).complete Response.ok)

/-- The fine rate register written (10_state.md R30). -/
def State.writeFineRate (s : State) (r : BitVec 32) : State :=
  s.setCsr ⟨s.csr.startTime, s.csr.baseOffset, r, s.csr.grossRate⟩

/-- The gross rate register written (10_state.md R31). -/
def State.writeGrossRate (s : State) (r : BitVec 32) : State :=
  s.setCsr ⟨s.csr.startTime, s.csr.baseOffset, s.csr.fineRate, r⟩

/-- `SETRATE.F`: a new epoch at the value steered under the old rate (42_steering.md R181). -/
def execSetrateF (p : Bool) (s : State) : Host.Outcome State Fault Refusal :=
  .next (s.privileged p fun s =>
    ((s.restartEpoch s.now).writeFineRate s.opAHalf).complete Response.ok)

/-- `SETRATE.G` (42_steering.md R181). -/
def execSetrateG (p : Bool) (s : State) : Host.Outcome State Fault Refusal :=
  .next (s.privileged p fun s =>
    ((s.restartEpoch s.now).writeGrossRate s.opAHalf).complete Response.ok)

/-- `GETRATE.F` (42_steering.md R182). -/
def execGetrateF (s : State) : Host.Outcome State Fault Refusal :=
  .next (s.complete (Response.word (wordOfInt s.csr.fineRate.toInt)))

/-- `GETRATE.G` (42_steering.md R182). -/
def execGetrateG (s : State) : Host.Outcome State Fault Refusal :=
  .next (s.complete (Response.word (wordOfInt s.csr.grossRate.toInt)))

/-- `GETRATE.T` (42_steering.md R182). -/
def execGetrateT (s : State) : Host.Outcome State Fault Refusal :=
  .next (s.complete (Response.word (wordOfInt (totalRate s.csr))))

/-- `FETCH` (42_steering.md R183). -/
def execFetch (s : State) : Host.Outcome State Fault Refusal :=
  .next (s.sampled.complete (Response.value s.fetched))

/-- `SETCLK` (42_steering.md R184). -/
def execSetclk (p : Bool) (s : State) : Host.Outcome State Fault Refusal :=
  .next (s.privileged p fun s =>
    (s.restartEpoch s.opAHigh).complete Response.ok)

/-- `ADJOFF` (42_steering.md R185). -/
def execAdjoff (p : Bool) (s : State) : Host.Outcome State Fault Refusal :=
  .next (s.privileged p fun s =>
    (s.restartEpoch (s.now + s.opALow)).complete Response.ok)

/-- The clock register latched and every slot's timer sampled (42_steering.md R187). -/
def State.latchClock (s : State) : State :=
  s.sampled.setClockRegister s.fetched (s.cpus.map (cptSample s.cfg.cptShift s.now))

/-- `UPDATE` (42_steering.md R187). -/
def execUpdate (s : State) : Host.Outcome State Fault Refusal :=
  .next (s.latchClock.complete (Response.value s.fetched))

/-- `GETEPO` (42_steering.md R188). -/
def execGetepo (cpu : BitVec 8) (s : State) : Host.Outcome State Fault Refusal :=
  .next (s.withSlot cpu fun s => s.complete (Response.word (s.slot cpu).todEpoch))

/-- The epoch of a slot written (10_state.md R35). -/
def setTodEpoch (v : Word) (c : Cpu) : Cpu := { c with todEpoch := v }

/-- `SETEPO` (42_steering.md R190). -/
def execSetepo (p : Bool) (cpu : BitVec 8) (s : State) : Host.Outcome State Fault Refusal :=
  .next (s.privileged p fun s => s.withSlot cpu fun s =>
    (s.onSlot cpu (setTodEpoch s.opALow)).complete Response.ok)

/-- The CPU-visible clock of a slot, the `TOD_CLOCK` macro (42_steering.md R191). -/
def State.cpuClock (s : State) (cpu : BitVec 8) : Word :=
  (etodHigh s.todValue &&& s.cfg.todClockMask) + (s.slot cpu).todEpoch

/-- `TODCLK` (42_steering.md R191). -/
def execTodclk (cpu : BitVec 8) (s : State) : Host.Outcome State Fault Refusal :=
  .next (s.withSlot cpu fun s => s.complete (Response.word (s.cpuClock cpu)))

/-- `RDCSR.ST` (42_steering.md R192). -/
def execRdcsrSt (s : State) : Host.Outcome State Fault Refusal :=
  .next (s.complete (Response.word s.csr.startTime))

/-- `RDCSR.BO` (42_steering.md R192). -/
def execRdcsrBo (s : State) : Host.Outcome State Fault Refusal :=
  .next (s.complete (Response.word s.csr.baseOffset))

/-- `RDCSR.TV` (42_steering.md R192). -/
def execRdcsrTv (s : State) : Host.Outcome State Fault Refusal :=
  .next (s.complete (Response.value s.todValue))

end Sys2Proof.Machine
end

