-- ==== Sys2Proof/Machine/Sync.lean ====
section
/-! DEFINITION. Family 4, synchronisation: the key-byte locks, the coarse lock and compare and swap
(spec/44_sync.md R242 to R270). -/

namespace Sys2Proof.Machine

/-! ### Lock sites -/

/-- The kind of a lock target (44_sync.md R242). -/
inductive LockKind where
  | rcp
  | pgste
  | sca
  deriving DecidableEq, Repr

/-- `LockSite(SEL, AD, B)`: the byte address and the one-bit mask (44_sync.md R243). -/
def lockSite (c : Config) (k : LockKind) (ad b : Word) : Word × Byte :=
  match k with
  | .rcp => (ad, c.rcpLock)
  | .pgste =>
    if c.useSkaipAsLock then (b, c.skaipMask)
    else (ad + BitVec.ofNat 64 c.pgsteRcpOffset, c.rcpLock)
  | .sca => (ad, c.scaIpteLock)

/-- The lock site of the current request. -/
def State.site (s : State) (k : LockKind) : Word × Byte :=
  lockSite s.cfg k s.opAd s.opBLow

/-- A byte on a 128-bit bus. -/
def wideOfByte (v : Byte) : Wide := v.setWidth 128

/-- A lock byte rewritten in one atomic step, with the reference and change bookkeeping, and the command
answered `DONE` (44_sync.md R244, R248). -/
def State.rewriteLockByte (s : State) (a : Word) (new : Byte) : State :=
  ((s.storeRmw a 1 (wideOfByte (s.byteAt a)) (wideOfByte new)).setRC a).complete Response.ok

/-- The step of a blocking lock: acquired if the bit is clear, else held (44_sync.md R245). -/
def State.lockOrHold (s : State) (site : Word × Byte) : State :=
  if s.byteAt site.1 &&& site.2 = 0#8 then
    s.rewriteLockByte site.1 (s.byteAt site.1 ||| site.2)
  else s.hold

/-- The step of a try-once lock: acquired if the bit is clear, else `BUSY` and nothing written
(44_sync.md R246). -/
def State.lockOrBusy (s : State) (site : Word × Byte) : State :=
  if s.byteAt site.1 &&& site.2 = 0#8 then
    s.rewriteLockByte site.1 (s.byteAt site.1 ||| site.2)
  else (s.readRmw site.1 1 (wideOfByte (s.byteAt site.1))).complete Response.busy

/-- `LOCK`: the access is checked once, when the command is issued and not again while it is held
(44_sync.md R245; log entry 8). -/
def State.lock (s : State) (k : LockKind) : State :=
  let site := s.site k
  if s.wasHeld then s.lockOrHold site
  else s.withAccess site.1 1 fun s => s.lockOrHold site

/-- `TRYLOCK` (44_sync.md R246). -/
def State.tryLock (s : State) (k : LockKind) : State :=
  let site := s.site k
  s.withAccess site.1 1 fun s => s.lockOrBusy site

/-- `UNLOCK`: the bit is cleared whatever it was, the seven other bits kept (44_sync.md R249). -/
def State.unlock (s : State) (k : LockKind) : State :=
  let site := s.site k
  s.withAccess site.1 1 fun s => s.rewriteLockByte site.1 (s.byteAt site.1 &&& ~~~site.2)

/-- `LOCK.R` (44_sync.md R245). -/
def execLockR (s : State) : Host.Outcome State Fault Refusal := .next (s.lock .rcp)

/-- `LOCK.P` (44_sync.md R245, R250). -/
def execLockP (s : State) : Host.Outcome State Fault Refusal := .next (s.lock .pgste)

/-- `LOCK.S` (44_sync.md R245). -/
def execLockS (s : State) : Host.Outcome State Fault Refusal := .next (s.lock .sca)

/-- `TRYLOCK.R` (44_sync.md R246). -/
def execTrylockR (s : State) : Host.Outcome State Fault Refusal := .next (s.tryLock .rcp)

/-- `TRYLOCK.P` (44_sync.md R246, R250). -/
def execTrylockP (s : State) : Host.Outcome State Fault Refusal := .next (s.tryLock .pgste)

/-- `TRYLOCK.S` (44_sync.md R246). -/
def execTrylockS (s : State) : Host.Outcome State Fault Refusal := .next (s.tryLock .sca)

/-- `UNLOCK.R` (44_sync.md R249). -/
def execUnlockR (s : State) : Host.Outcome State Fault Refusal := .next (s.unlock .rcp)

/-- `UNLOCK.P` (44_sync.md R249, R250). -/
def execUnlockP (s : State) : Host.Outcome State Fault Refusal := .next (s.unlock .pgste)

/-- `UNLOCK.S` (44_sync.md R249). -/
def execUnlockS (s : State) : Host.Outcome State Fault Refusal := .next (s.unlock .sca)

/-! ### The coarse lock -/

/-- The coarse lock acquired by the issuing port, with its event (44_sync.md R253, 20_memory.md R86). -/
def State.acquireGlock (s : State) : State :=
  { s with glock := .held s.active, history := .acq s.active :: s.history }

/-- The coarse lock freed by the issuing port, with its event (44_sync.md R254, 20_memory.md R86). -/
def State.releaseGlock (s : State) : State :=
  { s with glock := .free, history := .rel s.active :: s.history }

/-- `GACQ` (44_sync.md R253). -/
def execGacq (s : State) : Host.Outcome State Fault Refusal :=
  .next (if s.glock = .free then s.acquireGlock.complete Response.ok else s.hold)

/-- `GREL` (44_sync.md R254). -/
def execGrel (s : State) : Host.Outcome State Fault Refusal :=
  .next (if s.glock = .held s.active then s.releaseGlock.complete Response.ok
    else s.complete Response.ok)

/-! ### Compare and swap -/

/-- The pairing check of the pair forms (44_sync.md R262). -/
def State.withPair (s : State) (r1 r3 : BitVec 4) (run : State → State) : State :=
  if r1.getLsbD 0 || r3.getLsbD 0 then s.raisePgm .specification else run s

/-- The alignment check (44_sync.md R263, 20_memory.md R76). -/
def State.withAligned (s : State) (n : Nat) (run : State → State) : State :=
  if s.opAd.toNat % n = 0 then run s else s.raisePgm .specification

/-- The response of a compare and swap: its condition code and the first operand after it
(44_sync.md R261). -/
def casResponse (cc : BitVec 2) (v : Wide) : Response :=
  { Response.value v with cc := cc, ccv := true }

/-- The equal outcome: the operand replaced, both key flags set, `CC = 0` (44_sync.md R261). -/
def State.casEqual (s : State) (n : Nat) (cmp : Wide) : State :=
  ((s.storeRmw s.opAd n cmp (lowBytes n s.opB)).setRC s.opAd).serialize.complete (casResponse 0#2 cmp)

/-- The response of a mismatch: `ICPT` with the configured reason when `I = 1` (44_sync.md R261, R266). -/
def mismatchResponse (c : Config) (i : Bool) (old : Wide) : Response :=
  if i then { casResponse 1#2 old with st := .icpt, pic := c.icptCsReason }
  else casResponse 1#2 old

/-- The unequal outcome: nothing stored, the reference flag set, `CC = 1`, the old value answered
(44_sync.md R261). -/
def State.casUnequal (s : State) (n : Nat) (i : Bool) (old : Wide) : State :=
  ((s.readRmw s.opAd n old).setRef s.opAd).serialize.complete (mismatchResponse s.cfg i old)

/-- The read, the comparison and the write, one atomic step (44_sync.md R261, 20_memory.md R78). -/
def State.casAccess (s : State) (n : Nat) (i : Bool) : State :=
  let old := memRead s.mem s.opAd n
  if old = lowBytes n s.opA then s.casEqual n old else s.casUnequal n i old

/-- The procedure the four forms share, after their checks (44_sync.md R261, R263). -/
def State.compareAndSwap (s : State) (n : Nat) (i : Bool) : State :=
  s.withAligned n fun s => s.serialize.withAccess s.opAd n fun s => s.casAccess n i

/-- `CAS.W` (44_sync.md R267). -/
def execCasW (i : Bool) (s : State) : Host.Outcome State Fault Refusal :=
  .next (s.compareAndSwap 4 i)

/-- `CAS.G` (44_sync.md R268). -/
def execCasG (i : Bool) (s : State) : Host.Outcome State Fault Refusal :=
  .next (s.compareAndSwap 8 i)

/-- `CAS.Q` (44_sync.md R270). -/
def execCasQ (i : Bool) (r1 r3 : BitVec 4) (s : State) : Host.Outcome State Fault Refusal :=
  .next (s.withPair r1 r3 fun s => s.compareAndSwap 16 i)

/-- `CAS.D` (44_sync.md R269). -/
def execCasD (i : Bool) (r1 r3 : BitVec 4) (s : State) : Host.Outcome State Fault Refusal :=
  .next (s.withPair r1 r3 fun s => s.compareAndSwap 8 i)

end Sys2Proof.Machine
end

