-- ==== Sys2Proof/Machine/Timers.lean ====
section
/-! DEFINITION. Family 3, the CPU timer and the interval timer: spec/43_timers.md R213 to R221. -/

namespace Sys2Proof.Machine

/-- Slot `cpu` sampled at this command's `now` (43_timers.md R219). -/
def State.sampleSlot (s : State) (cpu : BitVec 8) : State :=
  s.sampled.onSlot cpu (cptSample s.cfg.cptShift s.now)

/-- `GETCPT` (43_timers.md R213). -/
def execGetcpt (cpu : BitVec 8) (s : State) : Host.Outcome State Fault Refusal :=
  .next (s.withSlot cpu fun s =>
    (s.sampleSlot cpu).complete (Response.word (cptVal s.cfg.cptShift s.now (s.slot cpu))))

/-- The CPU timer set to `v`: its base at `now + asr64(v, CPT_SHIFT)` (43_timers.md R214). -/
def setCptBase (shift : Nat) (now v : Word) (c : Cpu) : Cpu :=
  { c with cptBase := now + asr64 v shift }

/-- The CPU timer set and sampled (43_timers.md R214). -/
def setCptSampled (shift : Nat) (now v : Word) (c : Cpu) : Cpu :=
  cptSample shift now (setCptBase shift now v c)

/-- `SETCPT` (43_timers.md R214). -/
def execSetcpt (p : Bool) (cpu : BitVec 8) (s : State) : Host.Outcome State Fault Refusal :=
  .next (s.privileged p fun s => s.withSlot cpu fun s =>
    (s.sampled.onSlot cpu (setCptSampled s.cfg.cptShift s.now s.opALow)).complete Response.ok)

/-- The pending condition a slot shows once sampled at this command's `now` (43_timers.md R215). -/
def State.pendingSeen (s : State) (cpu : BitVec 8) : Bool :=
  (cptSample s.cfg.cptShift s.now (s.slot cpu)).cptPending

/-- The pending latch of a slot cleared (43_timers.md R215). -/
def clearPending (c : Cpu) : Cpu := { c with cptPending := false }

/-- `CPTPND`, the fetch-with-reset (43_timers.md R215). -/
def execCptpnd (cpu : BitVec 8) (s : State) : Host.Outcome State Fault Refusal :=
  .next (s.withSlot cpu fun s =>
    ((s.sampleSlot cpu).onSlot cpu clearPending).complete
      (Response.value ((BitVec.ofBool (s.pendingSeen cpu)).setWidth 128)))

/-- `GETIT` (43_timers.md R221). -/
def execGetit (cpu : BitVec 8) (s : State) : Host.Outcome State Fault Refusal :=
  .next (s.withSlot cpu fun s =>
    let d := (s.slot cpu).itBase - s.now
    (s.sampled.ticksTaken d).complete (Response.word (s.sampled.ticksOf d)))

/-- The interval-timer base of a slot written (43_timers.md R220). -/
def setItBase (v : Word) (c : Cpu) : Cpu := { c with itBase := v }

/-- `SETIT` (43_timers.md R220). -/
def execSetit (cpu : BitVec 8) (s : State) : Host.Outcome State Fault Refusal :=
  .next (s.withSlot cpu fun s =>
    (s.sampled.onSlot cpu (setItBase (s.now + wordOfInt (ticksToHu s.opAHalf)))).complete Response.ok)

/-- `IT2E` (43_timers.md R217). -/
def execIt2e (s : State) : Host.Outcome State Fault Refusal :=
  .next (s.complete (Response.word (wordOfInt (ticksToHu s.opAHalf))))

/-- `E2IT` (43_timers.md R218). -/
def execE2it (s : State) : Host.Outcome State Fault Refusal :=
  .next ((s.ticksTaken s.opALow).complete (Response.word (s.ticksOf s.opALow)))

end Sys2Proof.Machine
end

