-- ==== Sys2Proof/Machine/Dispatch.lean ====
section
/-! DEFINITION. One arm per command of spec/opcode_table.json, each one direct call of its meaning. -/

namespace Sys2Proof.Machine

/-- The meaning of a command, run for the port `s.active` on its outstanding request. -/
def exec (i : Instr) (s : State) : Host.Outcome State Fault Refusal :=
  match i with
  | .eadd _ => Sys2Proof.Machine.execEadd s
  | .esub _ => Sys2Proof.Machine.execEsub s
  | .eshf _ => Sys2Proof.Machine.execEshf s
  | .e2t _ => Sys2Proof.Machine.execE2t s
  | .t2e _ => Sys2Proof.Machine.execT2e s
  | .h2e _ => Sys2Proof.Machine.execH2e s
  | .h2eF _ => Sys2Proof.Machine.execH2eF s
  | .hclk _ => Sys2Proof.Machine.execHclk s
  | .csrrst p => Sys2Proof.Machine.execCsrrst p s
  | .setrateF p => Sys2Proof.Machine.execSetrateF p s
  | .setrateG p => Sys2Proof.Machine.execSetrateG p s
  | .getrateF _ => Sys2Proof.Machine.execGetrateF s
  | .getrateG _ => Sys2Proof.Machine.execGetrateG s
  | .getrateT _ => Sys2Proof.Machine.execGetrateT s
  | .fetch _ => Sys2Proof.Machine.execFetch s
  | .setclk p => Sys2Proof.Machine.execSetclk p s
  | .adjoff p => Sys2Proof.Machine.execAdjoff p s
  | .update _ => Sys2Proof.Machine.execUpdate s
  | .getepo _ cpu => Sys2Proof.Machine.execGetepo cpu s
  | .setepo p cpu => Sys2Proof.Machine.execSetepo p cpu s
  | .todclk _ cpu => Sys2Proof.Machine.execTodclk cpu s
  | .rdcsrSt _ => Sys2Proof.Machine.execRdcsrSt s
  | .rdcsrBo _ => Sys2Proof.Machine.execRdcsrBo s
  | .rdcsrTv _ => Sys2Proof.Machine.execRdcsrTv s
  | .getcpt _ cpu => Sys2Proof.Machine.execGetcpt cpu s
  | .setcpt p cpu => Sys2Proof.Machine.execSetcpt p cpu s
  | .cptpnd _ cpu => Sys2Proof.Machine.execCptpnd cpu s
  | .getit _ cpu => Sys2Proof.Machine.execGetit cpu s
  | .setit _ cpu => Sys2Proof.Machine.execSetit cpu s
  | .it2e _ => Sys2Proof.Machine.execIt2e s
  | .e2it _ => Sys2Proof.Machine.execE2it s
  | .lockR _ => Sys2Proof.Machine.execLockR s
  | .lockP _ => Sys2Proof.Machine.execLockP s
  | .lockS _ => Sys2Proof.Machine.execLockS s
  | .trylockR _ => Sys2Proof.Machine.execTrylockR s
  | .trylockP _ => Sys2Proof.Machine.execTrylockP s
  | .trylockS _ => Sys2Proof.Machine.execTrylockS s
  | .unlockR _ => Sys2Proof.Machine.execUnlockR s
  | .unlockP _ => Sys2Proof.Machine.execUnlockP s
  | .unlockS _ => Sys2Proof.Machine.execUnlockS s
  | .gacq _ => Sys2Proof.Machine.execGacq s
  | .grel _ => Sys2Proof.Machine.execGrel s
  | .casW _ k => Sys2Proof.Machine.execCasW k s
  | .casG _ k => Sys2Proof.Machine.execCasG k s
  | .casQ _ k r1 r3 => Sys2Proof.Machine.execCasQ k r1 r3 s
  | .casD _ k r1 r3 => Sys2Proof.Machine.execCasD k r1 r3 s
  | .agl _ m => Sys2Proof.Machine.execAgl m s
  | .sgl _ m => Sys2Proof.Machine.execSgl m s
  | .alcgl _ cci => Sys2Proof.Machine.execAlcgl cci s
  | .slbgl _ cci => Sys2Proof.Machine.execSlbgl cci s
  | .slagl _ m => Sys2Proof.Machine.execSlagl m s
  | .bctgl _ => Sys2Proof.Machine.execBctgl s
  | .brctgl _ => Sys2Proof.Machine.execBrctgl s

end Sys2Proof.Machine
end

