-- ==== Sys2Proof/Machine/Issue.lean ====
section
/-! DEFINITION. How a command reaches the block: the schedule names a port (spec/10_state.md R47) and its
outstanding request is taken (spec/10_state.md R22, spec/00_scope.md R15). -/

namespace Sys2Proof.Machine

/-- The port that steps next: the schedule's, else a free value (log entry 6). -/
def State.nextPort (s : State) : Nat :=
  match s.schedule with
  | p :: _ => p
  | [] => Config.schedulePort s.draws

/-- The schedule's next turn used up. -/
def State.turnTaken (s : State) : State :=
  { s with
    schedule := s.schedule.tail
    draws := if s.schedule.isEmpty then s.draws + 1 else s.draws }

/-- The named port made the issuing port of this step. -/
def State.select (s : State) : State :=
  { s.turnTaken with active := s.nextPort }

/-- The named port has an outstanding request. -/
def State.hasTurn (s : State) : Bool :=
  !(s.portAt s.nextPort).requests.isEmpty

/-- A request presented on port 0 ahead of what it holds, port 0 named next (log entry 14). -/
def State.present (s : State) (r : Request) : State :=
  { s with
    schedule := 0 :: s.schedule
    ports := match s.ports with
      | [] => [{ resetPort with requests := [r] }]
      | p :: rest => { p with requests := r :: p.requests, held := false } :: rest }

/-- The request of a bare command word: operand buses 0 (log entry 14). -/
def bareRequest (cw : CmdWord) : Request where
  cw := cw
  ad := 0#64
  a := 0#128
  b := 0#128

end Sys2Proof.Machine
end

