-- ==== Sys2Proof/Machine/Step.lean ====
section
/-! DEFINITION. One step of the block: one command of one port (spec/00_scope.md R10, R15). -/

namespace Sys2Proof.Machine

/-- The issuing port's outstanding command, decoded and run; a word that names no command takes its
program interrupt (30_encoding.md R120, R121). -/
def runCommand (s : State) : Host.Outcome State Fault Refusal :=
  match decode s.cfg.hasLong s.request.cw with
  | .ok i => exec i s
  | .error r => .next (s.raisePgm (rejectionCode r))

/-- One step: the port the schedule names runs its outstanding command; a port with none has no step and
nothing of the block moves (00_scope.md R15). -/
def step (s : State) : Host.Outcome State Fault Refusal :=
  if s.hasTurn then runCommand s.select else .next s.turnTaken

/-- The command word `w` presented where the next step takes its command, port 0 named next, the operand
buses 0 (log entry 14). -/
def State.withFetchWord (s : State) (nbits w : Nat) : State :=
  s.present (bareRequest (BitVec.ofNat 32 (w % 2 ^ nbits)))

end Sys2Proof.Machine
end

