-- ==== Sys2Proof/Machine/Pseudo.lean ====
section
/-! DEFINITION. The assembler's line and pseudo-instructions as the requests they stand for
(spec/30_encoding.md R125, R126). They live in the requester: the block sees the expansion only. -/

namespace Sys2Proof.Machine

/-- One line of 30_encoding.md R125 as a record: the issuing port and the buses default to 0. -/
structure Line where
  port : Nat := 0
  instr : Instr
  ad : Word := 0#64
  a : Wide := 0#128
  b : Wide := 0#128
  deriving DecidableEq, Repr

/-- The request a line presents. -/
def lineRequest (l : Line) : Request where
  cw := encode l.instr
  ad := l.ad
  a := l.a
  b := l.b

/-- `ESHR a=x, n=k` (30_encoding.md R126). -/
def pseudoEshr (x : Wide) (k : BitVec 32) : Line :=
  { instr := .eshf false, a := x, b := k.setWidth 128 }

/-- `ESHL a=x, n=k` (30_encoding.md R126). -/
def pseudoEshl (x : Wide) (k : BitVec 32) : Line :=
  { instr := .eshf false, a := x, b := (-k).setWidth 128 }

/-- A pseudo-instruction of two lines: the second uses the response of the first, which the requester
binds (30_encoding.md R125, R126). -/
structure TwoLines where
  first : Line
  second : Response → Line

/-- `FETCHT` (30_encoding.md R126). -/
def pseudoFetcht : TwoLines where
  first := { instr := .fetch false }
  second r := { instr := .e2t false, a := r.r }

/-- `UPDATET` (30_encoding.md R126). -/
def pseudoUpdatet : TwoLines where
  first := { instr := .update false }
  second r := { instr := .e2t false, a := r.r }

/-- `SETCLKT value=t` (30_encoding.md R126). -/
def pseudoSetclkt (t : Word) : TwoLines where
  first := { instr := .t2e false, a := wideOfWord t }
  second r := { instr := .setclk true, a := r.r }

/-- `TODCLKT cpu=c` (30_encoding.md R126). -/
def pseudoTodclkt (c : BitVec 8) : TwoLines where
  first := { instr := .todclk false c }
  second r := { instr := .e2t false, a := mkEtod (etodLow r.r) 0#64 }

/-- `SPINLOCK.x`: the try-once line again while it answers `BUSY` (30_encoding.md R126). -/
def pseudoSpinlock (l : Line) (r : Response) : Option Line :=
  if r.st = .busy then some l else none

end Sys2Proof.Machine
end

