-- ==== Sys2Proof/Machine/Snapshot.lean ====
section
/-! DEFINITION. Suspend and resume of the clock state as two operations of the environment
(spec/42_steering.md R194, spec/70_reset_and_hazards.md R354). No command reaches them and the record's
binary layout is outside the spec; `0x2A` and `0x2B` answer an operation exception. -/

namespace Sys2Proof.Machine

/-- The saved record: every element of the list of 70_reset_and_hazards.md R350. -/
structure ClockRecord where
  csr : Csr
  todValue : Wide
  cpus : List Cpu
  glock : GLock
  deriving DecidableEq, Repr

/-- The record of a state. -/
def State.suspendClock (s : State) : ClockRecord where
  csr := s.csr
  todValue := s.todValue
  cpus := s.cpus
  glock := s.glock

/-- Every element restored from the record in one step (70_reset_and_hazards.md R354). -/
def State.resumeClock (s : State) (r : ClockRecord) : State :=
  { s with csr := r.csr, todValue := r.todValue, cpus := r.cpus, glock := r.glock }

end Sys2Proof.Machine
end

