-- ==== Sys2Proof/WellFormed.lean ====
section
/-! DEFINITION. Which commands a configuration admits: the per-CPU slot exists
(spec/30_encoding.md R102, R120), a pair form names even registers (spec/44_sync.md R262), family 5 is
present (spec/30_encoding.md R115). Every other field fits its place by its type. -/

namespace Sys2Proof

/-- A slot number the configuration has: `0 <= CPU < NCPU` (30_encoding.md R102). -/
def slotOk (c : Config) (cpu : BitVec 8) : Bool :=
  decide (cpu.toNat < c.ncpu)

/-- Both register designations of a pair form are even (44_sync.md R262). -/
def pairOk (r1 r3 : BitVec 4) : Bool :=
  !r1.getLsbD 0 && !r3.getLsbD 0

/-- The checks of a command's fields against the configuration, one arm per constructor. -/
def Instr.wellFormed (c : Config) : Instr → Bool
  | .eadd _ => true
  | .esub _ => true
  | .eshf _ => true
  | .e2t _ => true
  | .t2e _ => true
  | .h2e _ => true
  | .h2eF _ => true
  | .hclk _ => true
  | .csrrst _ => true
  | .setrateF _ => true
  | .setrateG _ => true
  | .getrateF _ => true
  | .getrateG _ => true
  | .getrateT _ => true
  | .fetch _ => true
  | .setclk _ => true
  | .adjoff _ => true
  | .update _ => true
  | .getepo _ cpu => slotOk c cpu
  | .setepo _ cpu => slotOk c cpu
  | .todclk _ cpu => slotOk c cpu
  | .rdcsrSt _ => true
  | .rdcsrBo _ => true
  | .rdcsrTv _ => true
  | .getcpt _ cpu => slotOk c cpu
  | .setcpt _ cpu => slotOk c cpu
  | .cptpnd _ cpu => slotOk c cpu
  | .getit _ cpu => slotOk c cpu
  | .setit _ cpu => slotOk c cpu
  | .it2e _ => true
  | .e2it _ => true
  | .lockR _ => true
  | .lockP _ => true
  | .lockS _ => true
  | .trylockR _ => true
  | .trylockP _ => true
  | .trylockS _ => true
  | .unlockR _ => true
  | .unlockP _ => true
  | .unlockS _ => true
  | .gacq _ => true
  | .grel _ => true
  | .casW _ _ => true
  | .casG _ _ => true
  | .casQ _ _ r1 r3 => pairOk r1 r3
  | .casD _ _ r1 r3 => pairOk r1 r3
  | .agl _ _ => c.hasLong
  | .sgl _ _ => c.hasLong
  | .alcgl _ _ => c.hasLong
  | .slbgl _ _ => c.hasLong
  | .slagl _ _ => c.hasLong
  | .bctgl _ => c.hasLong
  | .brctgl _ => c.hasLong

end Sys2Proof
end

