-- ==== Sys2Proof/Safety.lean ====
section
/-! DEFINITION. The terms the claims use: how a command ended at its port, what it left unchanged, the
kinds of command, the invariant of the state, and the caller contracts that claims take as named premises
(spec/93_implementation_defined.md U6 to U9, spec/70_reset_and_hazards.md R362 to R367). -/

namespace Sys2Proof.Machine

/-! ### How a command ended -/

/-- The issuing port is one the block has. -/
abbrev State.live (s : State) : Prop := s.active < s.ports.length

/-- The response a port shows. -/
def State.responseOf (s : State) (p : Nat) : Option Response := (s.portAt p).response

/-- A port's command waits. -/
def State.heldAt (s : State) (p : Nat) : Bool := (s.portAt p).held

/-- The commands a port has still to run, the outstanding one first. -/
def State.requestsOf (s : State) (p : Nat) : List Request := (s.portAt p).requests

/-- The issuing port's command ended with `r`: the response stands at the port, the command is taken off,
the other ports are as before. -/
structure Answered (s t : State) (r : Response) : Prop where
  response : t.responseOf s.active = some r
  notHeld : t.heldAt s.active = false
  consumed : t.requestsOf s.active = (s.requestsOf s.active).tail
  others : ∀ p, p ≠ s.active → t.portAt p = s.portAt p

/-- The issuing port's command waits: no response, the command stays outstanding, the other ports are as
before. -/
structure Waiting (s t : State) : Prop where
  noResponse : t.responseOf s.active = none
  held : t.heldAt s.active = true
  outstanding : t.requestsOf s.active = s.requestsOf s.active
  others : ∀ p, p ≠ s.active → t.portAt p = s.portAt p

/-! ### Responses -/

/-- The response `DONE` with the 128-bit result `v`, no condition code, no branch. -/
def doneWide (v : Wide) : Response := ⟨.done, 0#16, 0#2, false, false, v⟩

/-- The response `DONE` with the 64-bit result `v` in `R[63:0]`, `R[127:64]` zero. -/
def doneWord (v : Word) : Response := doneWide (BitVec.ofNat 128 v.toNat)

/-- The response `DONE` with every other field 0. -/
def doneEmpty : Response := doneWide 0#128

/-- The response `PGM` with the code `c`, every other field 0. -/
def pgmOnly (c : Pic) : Response := ⟨.pgm, c, 0#2, false, false, 0#128⟩

/-! ### Frames -/

/-- The steering state and the clock register are as before. -/
structure ClockKept (s t : State) : Prop where
  csr : t.csr = s.csr
  todValue : t.todValue = s.todValue

/-- Every byte of memory and every storage-key flag is as before. -/
structure StorageKept (s t : State) : Prop where
  bytes : ∀ a, t.byteAt a = s.byteAt a
  flags : ∀ f, t.keyFlags f = s.keyFlags f

/-- The host samples to come and the events so far are as before. -/
structure NoHostDraw (s t : State) : Prop where
  hostQueue : t.hostQueue = s.hostQueue
  history : t.history = s.history

/-- One host sample was drawn: the next one of the queue (log entry 3), and its event recorded. -/
structure OneHostDraw (s t : State) : Prop where
  hostQueue : t.hostQueue = s.hostQueue.tail
  history : t.history = .host s.hostSample :: s.history

/-- All of the spec's state but the ports and the history is as before. -/
structure BlockKept (s t : State) : Prop where
  clock : ClockKept s t
  slots : t.cpus = s.cpus
  glock : t.glock = s.glock
  storage : StorageKept s t
  cfg : t.cfg = s.cfg

/-- A command that only answers: it ended with `r`, drew no host sample and changed nothing else. -/
structure OnlyAnswered (s t : State) (r : Response) : Prop where
  answered : Answered s t r
  kept : BlockKept s t
  noDraw : NoHostDraw s t

/-- A command that draws one host sample, answers with `r` and changes nothing else. -/
structure SampledAndAnswered (s t : State) (r : Response) : Prop where
  answered : Answered s t r
  kept : BlockKept s t
  draw : OneHostDraw s t

/-- A command that draws one host sample and writes the steering state, nothing else but its answer. -/
structure SteeringWritten (s t : State) (x : Csr) : Prop where
  answered : Answered s t doneEmpty
  csr : t.csr = x
  todValue : t.todValue = s.todValue
  slots : t.cpus = s.cpus
  glock : t.glock = s.glock
  storage : StorageKept s t
  cfg : t.cfg = s.cfg
  draw : OneHostDraw s t

/-- A command that leaves the slots as the list `slots`, answers with `r` and changes nothing else but the
host draws. -/
structure SlotsWritten (s t : State) (slots : List Cpu) (r : Response) : Prop where
  answered : Answered s t r
  clock : ClockKept s t
  slots : t.cpus = slots
  glock : t.glock = s.glock
  storage : StorageKept s t
  cfg : t.cfg = s.cfg

/-- A command that answers with `r` and stores at most to the `n` bytes from `a` on and to the key flags of
the frame of `a`. -/
structure StoredAt (s t : State) (a : Word) (n : Nat) (r : Response) : Prop where
  answered : Answered s t r
  clock : ClockKept s t
  slots : t.cpus = s.cpus
  glock : t.glock = s.glock
  cfg : t.cfg = s.cfg
  hostQueue : t.hostQueue = s.hostQueue
  outside : ∀ b, (∀ j < n, b ≠ a + BitVec.ofNat 64 j) → t.byteAt b = s.byteAt b
  otherFrames : ∀ f, f ≠ frameOf s.cfg a → t.keyFlags f = s.keyFlags f

end Sys2Proof.Machine

namespace Sys2Proof

/-! ### Kinds of command -/

/-- The four writers of the steering state (42_steering.md R195). -/
def Instr.csrMutator : Instr → Bool
  | .csrrst _ | .setrateF _ | .setrateG _ | .setclk _ | .adjoff _ => true
  | _ => false

/-- The commands whose meaning needs `P = 1` (60_exceptions.md R330). -/
def Instr.isPrivileged : Instr → Bool
  | .csrrst _ | .setrateF _ | .setrateG _ | .setclk _ | .adjoff _ | .setepo _ _ | .setcpt _ _ => true
  | _ => false

/-- The commands that may be held (60_exceptions.md R341). -/
def Instr.mayWait : Instr → Bool
  | .lockR _ | .lockP _ | .lockS _ | .gacq _ => true
  | _ => false

/-- The try-once locks (44_sync.md R246). -/
def Instr.isTryLock : Instr → Bool
  | .trylockR _ | .trylockP _ | .trylockS _ => true
  | _ => false

/-- The compare-and-swap forms and their widths in bytes (44_sync.md R260). -/
def Instr.casWidth : Instr → Option Nat
  | .casW _ _ => some 4
  | .casG _ _ => some 8
  | .casQ _ _ _ _ => some 16
  | .casD _ _ _ _ => some 8
  | _ => none

/-- The lock commands and the kind of their target (44_sync.md R242). -/
def Instr.lockKind : Instr → Option Machine.LockKind
  | .lockR _ | .trylockR _ | .unlockR _ => some .rcp
  | .lockP _ | .trylockP _ | .unlockP _ => some .pgste
  | .lockS _ | .trylockS _ | .unlockS _ => some .sca
  | _ => none

/-- The unlock commands and the kind of their target (44_sync.md R249). -/
def Instr.unlockKind : Instr → Option Machine.LockKind
  | .unlockR _ => some .rcp
  | .unlockP _ => some .pgste
  | .unlockS _ => some .sca
  | _ => none

/-- The interception bit `I` of a compare and swap (30_encoding.md R102). -/
def Instr.interceptBit : Instr → Bool
  | .casW _ i | .casG _ i | .casQ _ i _ _ | .casD _ i _ _ => i
  | _ => false

/-- The pair forms name even registers (44_sync.md R262). -/
def Instr.pairEven : Instr → Bool
  | .casQ _ _ r1 r3 | .casD _ _ r1 r3 => decide (r1.toNat % 2 = 0 ∧ r3.toNat % 2 = 0)
  | _ => true

/-- `LOCK` of a target kind (44_sync.md R242). -/
def lockCommand (p : Bool) : Machine.LockKind → Instr
  | .rcp => .lockR p
  | .pgste => .lockP p
  | .sca => .lockS p

/-- `TRYLOCK` of a target kind (44_sync.md R242). -/
def tryLockCommand (p : Bool) : Machine.LockKind → Instr
  | .rcp => .trylockR p
  | .pgste => .trylockP p
  | .sca => .trylockS p

/-- `UNLOCK` of a target kind (44_sync.md R242). -/
def unlockCommand (p : Bool) : Machine.LockKind → Instr
  | .rcp => .unlockR p
  | .pgste => .unlockP p
  | .sca => .unlockS p

/-- The form number `SEL` of a target kind (44_sync.md R242). -/
def lockSel : Machine.LockKind → Nat
  | .rcp => 0
  | .pgste => 1
  | .sca => 2

/-- The code each access fault is reported with (20_memory.md R80). -/
def faultNumber : AccessFault → Pic
  | .protection => 0x0004#16
  | .addressing => 0x0005#16
  | .segmentTranslation => 0x0010#16
  | .pageTranslation => 0x0011#16
  | .translationSpecification => 0x0012#16

/-- The commands that reach memory (20_memory.md R70). -/
def Instr.reachesMemory (i : Instr) : Bool :=
  i.lockKind.isSome || i.casWidth.isSome

/-- The commands that set the condition code (10_state.md R23). -/
def Instr.setsCc : Instr → Bool
  | .agl _ _ | .sgl _ _ | .alcgl _ _ | .slbgl _ _ | .slagl _ _ => true
  | .casW _ _ | .casG _ _ | .casQ _ _ _ _ | .casD _ _ _ _ => true
  | _ => false

/-- The commands of family 5 (45_long_contracts.md R275). -/
def Instr.isLong : Instr → Bool
  | .agl _ _ | .sgl _ _ | .alcgl _ _ | .slbgl _ _ | .slagl _ _ | .bctgl _ | .brctgl _ => true
  | _ => false

/-- The `P` bit of a command (30_encoding.md R102). -/
def Instr.pBit : Instr → Bool
  | .eadd p => p
  | .esub p => p
  | .eshf p => p
  | .e2t p => p
  | .t2e p => p
  | .h2e p => p
  | .h2eF p => p
  | .hclk p => p
  | .csrrst p => p
  | .setrateF p => p
  | .setrateG p => p
  | .getrateF p => p
  | .getrateG p => p
  | .getrateT p => p
  | .fetch p => p
  | .setclk p => p
  | .adjoff p => p
  | .update p => p
  | .getepo p _ => p
  | .setepo p _ => p
  | .todclk p _ => p
  | .rdcsrSt p => p
  | .rdcsrBo p => p
  | .rdcsrTv p => p
  | .getcpt p _ => p
  | .setcpt p _ => p
  | .cptpnd p _ => p
  | .getit p _ => p
  | .setit p _ => p
  | .it2e p => p
  | .e2it p => p
  | .lockR p => p
  | .lockP p => p
  | .lockS p => p
  | .trylockR p => p
  | .trylockP p => p
  | .trylockS p => p
  | .unlockR p => p
  | .unlockP p => p
  | .unlockS p => p
  | .gacq p => p
  | .grel p => p
  | .casW p _ => p
  | .casG p _ => p
  | .casQ p _ _ _ => p
  | .casD p _ _ _ => p
  | .agl p _ => p
  | .sgl p _ => p
  | .alcgl p _ => p
  | .slbgl p _ => p
  | .slagl p _ => p
  | .bctgl p => p
  | .brctgl p => p

/-- The same command with another `P` bit. -/
def Instr.withP (q : Bool) : Instr → Instr
  | .eadd _ => .eadd q
  | .esub _ => .esub q
  | .eshf _ => .eshf q
  | .e2t _ => .e2t q
  | .t2e _ => .t2e q
  | .h2e _ => .h2e q
  | .h2eF _ => .h2eF q
  | .hclk _ => .hclk q
  | .csrrst _ => .csrrst q
  | .setrateF _ => .setrateF q
  | .setrateG _ => .setrateG q
  | .getrateF _ => .getrateF q
  | .getrateG _ => .getrateG q
  | .getrateT _ => .getrateT q
  | .fetch _ => .fetch q
  | .setclk _ => .setclk q
  | .adjoff _ => .adjoff q
  | .update _ => .update q
  | .getepo _ cpu => .getepo q cpu
  | .setepo _ cpu => .setepo q cpu
  | .todclk _ cpu => .todclk q cpu
  | .rdcsrSt _ => .rdcsrSt q
  | .rdcsrBo _ => .rdcsrBo q
  | .rdcsrTv _ => .rdcsrTv q
  | .getcpt _ cpu => .getcpt q cpu
  | .setcpt _ cpu => .setcpt q cpu
  | .cptpnd _ cpu => .cptpnd q cpu
  | .getit _ cpu => .getit q cpu
  | .setit _ cpu => .setit q cpu
  | .it2e _ => .it2e q
  | .e2it _ => .e2it q
  | .lockR _ => .lockR q
  | .lockP _ => .lockP q
  | .lockS _ => .lockS q
  | .trylockR _ => .trylockR q
  | .trylockP _ => .trylockP q
  | .trylockS _ => .trylockS q
  | .unlockR _ => .unlockR q
  | .unlockP _ => .unlockP q
  | .unlockS _ => .unlockS q
  | .gacq _ => .gacq q
  | .grel _ => .grel q
  | .casW _ i => .casW q i
  | .casG _ i => .casG q i
  | .casQ _ i r1 r3 => .casQ q i r1 r3
  | .casD _ i r1 r3 => .casD q i r1 r3
  | .agl _ m => .agl q m
  | .sgl _ m => .sgl q m
  | .alcgl _ cci => .alcgl q cci
  | .slbgl _ cci => .slbgl q cci
  | .slagl _ m => .slagl q m
  | .bctgl _ => .bctgl q
  | .brctgl _ => .brctgl q

/-- The opcodes of a block with or without family 5 (30_encoding.md R110 to R116; `0x2A` and `0x2B` are
reserved, R120). -/
def opcodeNumbers (hasLong : Bool) : List Nat :=
  [0x01, 0x02, 0x03, 0x04, 0x05, 0x10, 0x11, 0x20, 0x21, 0x22, 0x23, 0x24, 0x25, 0x26, 0x27, 0x28, 0x29,
    0x2C, 0x30, 0x31, 0x32, 0x33, 0x34, 0x35, 0x36, 0x40, 0x41, 0x42, 0x43, 0x44, 0x45] ++
  (if hasLong then [0x50, 0x51, 0x52, 0x53, 0x54, 0x55, 0x56] else [])

/-- A command word put together from the places of its fields (30_encoding.md R102). -/
def commandWord (opc sel : Nat) (p : Bool) (cpu : Nat := 0) (m : Bool := false)
    (cci : Nat := 0) (r1 : Nat := 0) (r3 : Nat := 0) : CmdWord :=
  BitVec.ofNat 32 (opc * 2 ^ 24 + cpu * 2 ^ 16 + sel * 2 ^ 12 + p.toNat * 2 ^ 11 + m.toNat * 2 ^ 10 +
    cci * 2 ^ 8 + r1 * 2 ^ 4 + r3)

/-- Among the words with operation code `opc` and this `P`, only the forms `sels` with every other field 0 are
commands; each other word is a specification exception (30_encoding.md R120). -/
def OnlyForms (opc : Nat) (p : Bool) (sels : List Nat) : Prop :=
  ∀ (hasLong : Bool) (w : CmdWord), w.toNat / 2 ^ 24 = opc → w.getLsbD 11 = p →
    (∀ sel ∈ sels, w ≠ commandWord opc sel p) → decode hasLong w = .error .specification

end Sys2Proof

namespace Sys2Proof.Machine

/-! ### The rules' numbers, in exact integer arithmetic -/

/-- The host time of 41_host_time.md R162 as a 128-bit number. -/
def hostTime (c : Config) (sec nsec : Nat) (fail : Bool) : Nat :=
  (((c.epoch1970Us + (sec * 1000000 : Nat)) * 2 ^ 68 + ((if fail then 0 else nsec) * 2 ^ 65 / 125 : Nat)) /
    2 ^ (128 - c.precisionBits) * 2 ^ (128 - c.precisionBits) % 2 ^ 128).toNat

/-- The host time of the draw a command makes in this state (41_host_time.md R163). -/
def State.hostNow (s : State) : Nat :=
  hostTime s.cfg s.hostSample.sec.toNat s.hostSample.nsec.toNat s.hostSample.fail

/-- The signed elapsed time `el` of 42_steering.md R178 at the host value `u`. -/
def elapsedAt (x : Csr) (u : Nat) : Int :=
  (((u + x.baseOffset.toNat) % 2 ^ 64 : Nat) - (x.startTime.toNat : Int)).bmod (2 ^ 64)

/-- `Steer(u)` of 42_steering.md R178 as a 64-bit number. -/
def steeredAt (c : Config) (x : Csr) (u : Nat) : Nat :=
  ((((u + x.baseOffset.toNat) % 2 ^ 64 : Nat) +
    elapsedAt x u * (x.fineRate.toInt + x.grossRate.toInt) / 2 ^ c.rateFracBits) % 2 ^ 64).toNat

/-- `Fetch().high` of the draw a command makes in this state (42_steering.md R179). -/
def State.steeredNow (s : State) : Nat := steeredAt s.cfg s.csr (s.hostNow / 2 ^ 64)

/-- `Fetch()` of the draw a command makes in this state (42_steering.md R179). -/
def State.fetchedNow (s : State) : Wide :=
  BitVec.ofNat 128 (s.steeredNow * 2 ^ 64 + s.hostNow % 2 ^ 64)

/-- The CPU timer's reading, `CptVal` modulo `2^64` (43_timers.md R212). -/
def timerReading (shift : Nat) (base : Word) (now : Nat) : Nat :=
  (((base.toNat : Int) - now) % 2 ^ 64 * 2 ^ shift % 2 ^ 64).toNat

/-- `CptSample`: a reading of `2^63` or more is a negative one (43_timers.md R219). -/
def timerSampled (shift : Nat) (now : Nat) (c : Cpu) : Cpu :=
  if timerReading shift c.cptBase now < 2 ^ 63 then { c with cptArmed := true }
  else if c.cptArmed = true then { c with cptPending := true, cptArmed := false }
  else c

/-- The byte at offset `j` of an `n`-byte big-endian operand (20_memory.md R74). -/
def operandByte (n : Nat) (v : Wide) (j : Nat) : Byte :=
  BitVec.ofNat 8 (v.toNat / 256 ^ (n - 1 - j))

/-- The low `n` bytes of a bus value, zero-extended (44_sync.md R261). -/
def operandValue (n : Nat) (v : Wide) : Wide := BitVec.ofNat 128 (v.toNat % 256 ^ n)

/-- The condition code of a signed result (45_long_contracts.md R277). -/
def signedCode (ovf : Prop) [Decidable ovf] (r : Word) : BitVec 2 :=
  if ovf then 3#2 else if r.toInt = 0 then 0#2 else if r.toInt < 0 then 1#2 else 2#2

/-- The condition code of a logical result: weight 2 the carry or no-borrow, weight 1 a result that is not
zero (45_long_contracts.md R277). -/
def logicalCode (carry : Prop) [Decidable carry] (r : Word) : BitVec 2 :=
  BitVec.ofNat 2 ((if carry then 2 else 0) + (if r.toNat = 0 then 0 else 1))

/-- The response of a signed form: with overflow under the mask the interrupt `0x0008` over the completed
result, else `DONE` (45_long_contracts.md R278). -/
def signedAnswer (ovf : Prop) [Decidable ovf] (m : Bool) (r : Word) : Response :=
  ⟨if ovf ∧ m = true then .pgm else .done, if ovf ∧ m = true then 0x0008#16 else 0#16,
    signedCode ovf r, true, false, BitVec.ofNat 128 r.toNat⟩

/-! ### The invariant -/

/-- A held port shows no response and its outstanding command is one that may be held. -/
def portWf (hasLong : Bool) (p : Port) : Bool :=
  !p.held || (p.response.isNone && match p.requests with
    | [] => false
    | r :: _ => match decode hasLong r.cw with
      | .ok i => i.mayWait
      | .error _ => false)

/-- The coarse lock is free or held by a port the block has. -/
def glockWf (nport : Nat) : GLock → Bool
  | .free => true
  | .held p => decide (p < nport)

/-- The invariant of the state: the configuration is legal, as many slots and ports as it says, the stores
in canonical form, the issuing port and the holder of the coarse lock ports of the block, and every held
port well formed. -/
def State.wf (s : State) : Bool :=
  s.cfg.legal && decide (s.cpus.length = s.cfg.ncpu) && decide (s.ports.length = s.cfg.nport) &&
  Memory.wf s.mem && KeyStore.wf s.cfg.keyShift s.keyRc && decide (s.active < s.cfg.nport) &&
  glockWf s.cfg.nport s.glock && s.ports.all (portWf s.cfg.hasLong)

/-! ### Lock ownership as ghost state, and the caller contracts -/

/-- Port `p` holds the lock `(a, mask)` after the events `h`, newest first: from the step in which its own
`LOCK` or `TRYLOCK` set the bit until the step of its own `UNLOCK` of it (44_sync.md R247). -/
def holdsLock (a : Word) (mask : Byte) (p : Nat) : List Event → Bool
  | [] => false
  | .rmw q b n old new wrote :: rest =>
    if q = p ∧ b = a ∧ n = 1 ∧ wrote = true then
      if new.setWidth 8 &&& mask = 0#8 then false
      else if old.setWidth 8 &&& mask = 0#8 then true
      else holdsLock a mask p rest
    else holdsLock a mask p rest
  | .ser _ :: rest => holdsLock a mask p rest
  | .acq _ :: rest => holdsLock a mask p rest
  | .rel _ :: rest => holdsLock a mask p rest
  | .host _ :: rest => holdsLock a mask p rest

/-- Mutual exclusion of the lock `(a, mask)`: a holder's bit is set, and there is at most one holder
(44_sync.md R247, R252). -/
structure LockExclusive (a : Word) (mask : Byte) (s : State) : Prop where
  bitSet : ∀ p, holdsLock a mask p s.history = true → s.byteAt a &&& mask ≠ 0#8
  unique : ∀ p q, holdsLock a mask p s.history = true → holdsLock a mask q s.history = true → p = q

/-- Premise `UnlockOnlyByHolder` (93_implementation_defined.md U6). -/
def unlockOnlyByHolder (i : Instr) (s : State) : Prop :=
  ∀ k, i.unlockKind = some k → holdsLock (s.site k).1 (s.site k).2 s.active s.history = true

/-- Premise `LockBytesOnlyViaLock` for the byte `a` (93_implementation_defined.md U8): a compare and swap
does not cover it. -/
def lockByteOnlyViaLock (a : Word) (i : Instr) (s : State) : Prop :=
  ∀ n, i.casWidth = some n → ∀ j < n, s.opAd + BitVec.ofNat 64 j ≠ a

/-- Premise `MutatorsUnderGlock` (93_implementation_defined.md U7). -/
def mutatorsUnderGlock (i : Instr) (s : State) : Prop :=
  i.csrMutator = true → s.glock = .held s.active

/-- Premise `GrelOnlyByHolder` (93_implementation_defined.md U9). -/
def grelOnlyByHolder (i : Instr) (s : State) : Prop :=
  ∀ p, i = .grel p → s.glock = .held s.active

/-- A host sample in nanoseconds, as `HostMonotone` compares it (92_eei_decisions.md D15). -/
def sampleNanos (h : HostSample) : Nat := h.sec.toNat * 10 ^ 9 + h.nsec.toNat

/-- The host samples of a history, newest first. -/
def hostSamples : List Event → List HostSample
  | [] => []
  | .host h :: rest => h :: hostSamples rest
  | .rmw _ _ _ _ _ _ :: rest => hostSamples rest
  | .ser _ :: rest => hostSamples rest
  | .acq _ :: rest => hostSamples rest
  | .rel _ :: rest => hostSamples rest

/-- Premise `HostMonotone`: each sample is not less than the one before (92_eei_decisions.md D15). -/
def hostMonotone (h : List Event) : Prop :=
  (hostSamples h).Pairwise fun newer older => sampleNanos older ≤ sampleNanos newer

end Sys2Proof.Machine
end

