-- ==== Sys2Proof/Certificates/Slice0/Obligations.lean ====
section
/-! DEFINITION. The statements for the provers, in the order of OBLIGATIONS.json. Each docstring names the
rule of spec/ it formalises and says what is the model's own choice. -/

section

open Sys2Proof Sys2Proof.Machine

/-! ### Encoding -/

/-- Decoding an encoded well-formed command gives it back (30_encoding.md R102, R103, R121). -/
def Obligations.DecodeInvertsEncode : Prop :=
  ∀ (c : Config) (i : Instr), i.wellFormed c = true → decode c.hasLong (encode i) = .ok i

/-- A word that decodes is the encoding of its command, matches the row of the opcode table under the row's
mask, and names a command of family 5 only when the family is present (30_encoding.md R103, R115, R121). -/
def Obligations.EncodeInvertsDecode : Prop :=
  ∀ (hasLong : Bool) (w : CmdWord) (i : Instr), decode hasLong w = .ok i →
    encode i = w ∧ w &&& (opcodeRow i).1 = (opcodeRow i).2 ∧ (i.isLong = true → hasLong = true)

/-- The worked encodings of 30_encoding.md R127, the two words that are no command among them. -/
def Obligations.WorkedEncodingsDecode : Prop :=
  decode true 0x01000000#32 = .ok (.eadd false) ∧
  decode true 0x03000000#32 = .ok (.eshf false) ∧
  decode true 0x10001000#32 = .ok (.h2eF false) ∧
  decode true 0x21001800#32 = .ok (.setrateG true) ∧
  decode true 0x22002000#32 = .ok (.getrateT false) ∧
  decode true 0x24000800#32 = .ok (.setclk true) ∧
  decode true 0x30010000#32 = .ok (.getcpt false 1#8) ∧
  decode true 0x31010800#32 = .ok (.setcpt true 1#8) ∧
  decode true 0x40001000#32 = .ok (.lockP false) ∧
  decode true 0x41002000#32 = .ok (.trylockS false) ∧
  decode true 0x45002000#32 = .ok (.casW false false) ∧
  decode true 0x45004024#32 = .ok (.casQ false false 2#4 4#4) ∧
  decode true 0x45003400#32 = .ok (.casG false true) ∧
  decode true 0x50000400#32 = .ok (.agl false true) ∧
  decode true 0x52000200#32 = .ok (.alcgl false 2#2) ∧
  decode true 0x01000001#32 = .error .specification ∧
  decode true 0x00000000#32 = .error .operation

/-- The order of decode (30_encoding.md R121), each case with its interrupt and nothing changed, asked or
drawn (R120, 60_exceptions.md R313): operation; privileged-operation; the fields, `SEL` and `CPU`; the
pairing; the alignment; then the command's own rule. -/
def Obligations.DecodeProceedsInOrder : Prop :=
  ∀ s : State, s.wf = true →
    let w := s.request.cw.toNat
    let opc := w / 2 ^ 24
    let sel := w / 2 ^ 12 % 16
    let trap : Pic → Prop := fun code => ∃ t, runCommand s = .next t ∧
      OnlyAnswered s t (pgmOnly code) ∧ t.verdicts = s.verdicts ∧ t.draws = s.draws
    let unassigned := opc ∉ opcodeNumbers s.cfg.hasLong
    let unprivileged := opc ∈ [0x20, 0x21, 0x24, 0x25, 0x28, 0x31] ∧ w / 2 ^ 11 % 2 = 0
    let badFields := (∀ i, s.request.cw &&& (opcodeRow i).1 ≠ (opcodeRow i).2) ∨
      (opc ∈ [0x27, 0x28, 0x29, 0x30, 0x31, 0x32, 0x33, 0x34] ∧ s.cfg.ncpu ≤ w / 2 ^ 16 % 256)
    let oddPair := opc = 0x45 ∧ (sel = 4 ∨ sel = 5) ∧ (w / 16 % 2 = 1 ∨ w % 2 = 1)
    let misaligned := opc = 0x45 ∧
      ((sel = 2 ∧ s.request.ad.toNat % 4 ≠ 0) ∨ (sel = 3 ∧ s.request.ad.toNat % 8 ≠ 0) ∨
        (sel = 4 ∧ s.request.ad.toNat % 16 ≠ 0) ∨ (sel = 5 ∧ s.request.ad.toNat % 8 ≠ 0))
    (unassigned → trap 0x0001#16) ∧
    (¬unassigned → unprivileged → trap 0x0002#16) ∧
    (¬unassigned → ¬unprivileged → badFields → trap 0x0006#16) ∧
    (¬unassigned → ¬unprivileged → ¬badFields → oddPair → trap 0x0006#16) ∧
    (¬unassigned → ¬unprivileged → ¬badFields → ¬oddPair → misaligned → trap 0x0006#16) ∧
    (¬unassigned → ¬unprivileged → ¬badFields → ¬oddPair → ¬misaligned →
      ∃ i, decode s.cfg.hasLong s.request.cw = .ok i ∧ encode i = s.request.cw ∧
        runCommand s = exec i s)

/-! ### The step -/

/-- A step runs the decoded command of the port the schedule names, on that port's outstanding request, with
the turn used up; a port with no outstanding request has no step, and the block and every port stay as they
are (00_scope.md R15; which port goes next is the schedule of log entry 6). -/
def Obligations.StepRunsTheDecodedCommand : Prop :=
  ∀ s : State,
    let u : State := { s with
      active := s.nextPort, schedule := s.schedule.tail,
      draws := if s.schedule = [] then s.draws + 1 else s.draws }
    (∀ r rest, s.requestsOf s.nextPort = r :: rest →
      u.request = r ∧ step s = runCommand u ∧
        ∀ i, decode s.cfg.hasLong r.cw = .ok i → step s = exec i u) ∧
    (s.requestsOf s.nextPort = [] →
      ∃ t, step s = .next t ∧ t.ports = s.ports ∧ t.active = s.active ∧ BlockKept s t ∧ NoHostDraw s t)

/-- A command ends in exactly one of four ways or waits (60_exceptions.md R310, R341): only `LOCK` and `GACQ`
wait; only `TRYLOCK` answers `BUSY`; only `CAS` with `I = 1` answers `ICPT` (R325). The fields an ending does
not use are 0: `PIC` with `DONE`, `CC` without `CCV`, `TK` but for a branch, every other field with `BUSY` and
with `PGM`, whose overflow alone carries `R`, `CC` and `CCV` (30_encoding.md R101). -/
def Obligations.EveryCommandEndsOrWaits : Prop :=
  ∀ s : State, s.live → ∃ t, runCommand s = .next t ∧
    ((Waiting s t ∧ ∃ i, decode s.cfg.hasLong s.request.cw = .ok i ∧ i.mayWait = true) ∨
      ∃ r, Answered s t r ∧
        (r.st = .done → r.pic = 0#16) ∧
        (r.ccv = false → r.cc = 0#2) ∧
        (r.tk = true → r.st = .done ∧ ∃ p, decode s.cfg.hasLong s.request.cw = .ok (.bctgl p) ∨
          decode s.cfg.hasLong s.request.cw = .ok (.brctgl p)) ∧
        (r.st = .busy → r = ⟨.busy, 0#16, 0#2, false, false, 0#128⟩ ∧
          ∃ i, decode s.cfg.hasLong s.request.cw = .ok i ∧ i.isTryLock = true) ∧
        (r.st = .pgm → r = pgmOnly r.pic ∨
          ∃ v : Word, r = ⟨.pgm, 0x0008#16, 3#2, true, false, BitVec.ofNat 128 v.toNat⟩) ∧
        (r.st = .icpt → r.pic = s.cfg.icptCsReason ∧ r.cc = 1#2 ∧ r.ccv = true ∧ r.tk = false ∧
          ∃ i, decode s.cfg.hasLong s.request.cw = .ok i ∧ i.casWidth ≠ none ∧ i.interceptBit = true))

/-! ### The invariant and reset -/

/-- Every step keeps the invariant of the state: as many slots and ports as the configuration says, the
stores in canonical form, the holder of the coarse lock a port, a held port one whose outstanding command may
be held. -/
def Obligations.EveryStepKeepsTheInvariant : Prop :=
  ∀ s t : State, s.wf = true → step s = .next t → t.wf = true

/-- Reset meets the invariant, in every legal configuration and for every host answer. -/
def Obligations.ResetMeetsTheInvariant : Prop :=
  State.reset.wf = true ∧ ∀ (c : Config) (h : HostSample), c.legal = true → (State.resetAt c h).wf = true

/-- The reset values of 10_state.md R48, with `h0` the host time of the sample drawn at reset; memory and the
key flags are unspecified there and not stated here. -/
def Obligations.ResetLeavesTheStatedValues : Prop :=
  ∀ (c : Config) (h : HostSample),
    let s := State.resetAt c h
    let d := deliverSample c h
    let h0 : Wide := BitVec.ofNat 128 (hostTime c d.sec.toNat d.nsec.toNat d.fail)
    s.csr.baseOffset = 0#64 ∧ s.csr.fineRate = 0#32 ∧ s.csr.grossRate = 0#32 ∧
    s.csr.startTime = h0.extractLsb' 64 64 ∧ s.todValue = h0 ∧
    s.cpus.length = c.ncpu ∧
    (∀ x ∈ s.cpus, x.todEpoch = 0#64 ∧ x.cptBase = h0.extractLsb' 64 64 ∧ x.cptArmed = true ∧
      x.cptPending = false ∧ x.itBase = h0.extractLsb' 64 64) ∧
    s.glock = .free

/-! ### Who writes what -/

/-- The steering state is written by its commands only, the clock register by `UPDATE` only
(10_state.md R20, R28; 42_steering.md R187, R195). -/
def Obligations.OnlyTheirCommandsWriteTheClock : Prop :=
  ∀ (i : Instr) (s t : State), exec i s = .next t →
    (t.csr.startTime ≠ s.csr.startTime ∨ t.csr.baseOffset ≠ s.csr.baseOffset → i.csrMutator = true) ∧
    (t.csr.fineRate ≠ s.csr.fineRate → ∃ p, i = .csrrst p ∨ i = .setrateF p) ∧
    (t.csr.grossRate ≠ s.csr.grossRate → ∃ p, i = .csrrst p ∨ i = .setrateG p) ∧
    (t.todValue ≠ s.todValue → ∃ p, i = .update p) ∧
    t.cfg = s.cfg

/-- Each element of a per-CPU slot is written by its commands only, and by those for the slot they name;
`UPDATE` samples every slot (10_state.md R20, R35 to R38; 43_timers.md R222). -/
def Obligations.OnlyTheirCommandsWriteASlot : Prop :=
  ∀ (i : Instr) (s t : State), exec i s = .next t →
    t.cpus.length = s.cpus.length ∧
    ∀ (d : Nat) (x y : Cpu), s.cpus[d]? = some x → t.cpus[d]? = some y →
      (y.todEpoch ≠ x.todEpoch → ∃ p c, i = .setepo p c ∧ c.toNat = d) ∧
      (y.cptBase ≠ x.cptBase → ∃ p c, i = .setcpt p c ∧ c.toNat = d) ∧
      (y.itBase ≠ x.itBase → ∃ p c, i = .setit p c ∧ c.toNat = d) ∧
      (y.cptArmed ≠ x.cptArmed ∨ y.cptPending ≠ x.cptPending →
        (∃ p, i = .update p) ∨
        ∃ p c, (i = .getcpt p c ∨ i = .setcpt p c ∨ i = .cptpnd p c) ∧ c.toNat = d) ∧
      (x.cptPending = true → y.cptPending = false → ∃ p c, i = .cptpnd p c ∧ c.toNat = d)

/-- The coarse lock moves only by a `GACQ` that takes it free and a `GREL` of its holder; memory and the key
flags only by the memory commands (10_state.md R20; 20_memory.md R70; 44_sync.md R272). -/
def Obligations.OnlyTheirCommandsWriteTheSharedState : Prop :=
  ∀ (i : Instr) (s t : State), exec i s = .next t →
    (t.glock ≠ s.glock →
      (∃ p, i = .gacq p ∧ s.glock = .free ∧ t.glock = .held s.active) ∨
      (∃ p, i = .grel p ∧ s.glock = .held s.active ∧ t.glock = .free)) ∧
    (i.reachesMemory = false → t.mem = s.mem ∧ t.keyRc = s.keyRc)

/-- A command only sets key flags, it never clears one (10_state.md R44). -/
def Obligations.KeyFlagsAreNeverCleared : Prop :=
  ∀ (i : Instr) (s t : State), exec i s = .next t → ∀ f,
    ((s.keyFlags f).r = true → (t.keyFlags f).r = true) ∧
    ((s.keyFlags f).c = true → (t.keyFlags f).c = true)

/-! ### Privilege and interrupts -/

/-- The privileged commands are the seven of 60_exceptions.md R330: with `P = 0` each answers `0x0002` and
changes nothing, whatever its other operands, and the check comes right after the one of the operation code,
before the fields; every other command runs the same with either `P`. -/
def Obligations.PrivilegedCommandsNeedSupervisorState : Prop :=
  (∀ i : Instr, i.isPrivileged = true ↔
    ∃ p c, i ∈ [.csrrst p, .setrateF p, .setrateG p, .setclk p, .adjoff p, .setepo p c, .setcpt p c]) ∧
  (∀ s : State, s.live → s.request.cw.toNat / 2 ^ 24 ∈ [0x20, 0x21, 0x24, 0x25, 0x28, 0x31] →
    s.request.cw.getLsbD 11 = false →
    ∃ t, runCommand s = .next t ∧ OnlyAnswered s t (pgmOnly 0x0002#16)) ∧
  ∀ (i : Instr) (s : State),
    (i.isPrivileged = true → i.pBit = false → s.live →
      ∃ t, exec i s = .next t ∧ OnlyAnswered s t (pgmOnly 0x0002#16)) ∧
    (i.isPrivileged = false → ∀ q, exec (i.withP q) s = exec i s)

/-- Every program interrupt leaves the block as it was and carries nothing but its code, except fixed-point
overflow, which carries the completed result; the one trace is the first `Serialize` of a `CAS` that ends in
an access fault (60_exceptions.md R317). -/
def Obligations.InterruptsChangeNothing : Prop :=
  ∀ (s t : State) (r : Response), s.live → runCommand s = .next t → Answered s t r → r.st = .pgm →
    BlockKept s t ∧ t.hostQueue = s.hostQueue ∧
    (r.pic ≠ 0x0008#16 → r = pgmOnly r.pic) ∧
    (t.history = s.history ∨
      (t.history = .ser s.active :: s.history ∧
        ∃ i n f, decode s.cfg.hasLong s.request.cw = .ok i ∧ i.casWidth = some n ∧
          s.verdictFor s.request.ad n = .faulted f ∧ r.pic = faultNumber f))

/-- Each code is reported for its causes only, and `0x0013` for none (60_exceptions.md R311, R315, R316): operation
for an operation code not assigned; privileged-operation for a privileged one with `P = 0`; specification for a
must-be-zero field or `SEL` that matches no row, a slot the block has not, an odd register of a pair form or a
misaligned operand; fixed-point overflow for a signed form that overflows under the mask; an access code for the
fault the memory-access layer answers at the lock's site or at the operand. -/
def Obligations.InterruptCodesHaveTheirCauses : Prop :=
  ∀ (s t : State) (r : Response), s.wf = true → runCommand s = .next t → Answered s t r → r.st = .pgm →
    let w := s.request.cw.toNat
    let opc := w / 2 ^ 24
    let sel := w / 2 ^ 12 % 16
    let address := s.request.ad.toNat
    let x := (s.request.a.extractLsb' 0 64).toInt
    let y := (s.request.b.extractLsb' 0 64).toInt
    let sign := s.request.a.toNat / 2 ^ 63 % 2
    let n := s.request.b.toNat % 64
    let shifted := s.request.a.toNat % 2 ^ 63 * 2 ^ n
    let command : Instr → Prop := fun i => decode s.cfg.hasLong s.request.cw = .ok i
    r.pic ≠ 0x0013#16 ∧
    ((r.pic = 0x0001#16 ∧ opc ∉ opcodeNumbers s.cfg.hasLong) ∨
      (r.pic = 0x0002#16 ∧ opc ∈ [0x20, 0x21, 0x24, 0x25, 0x28, 0x31] ∧
        s.request.cw.getLsbD 11 = false) ∨
      (r.pic = 0x0006#16 ∧ opc ∈ opcodeNumbers s.cfg.hasLong ∧
        ((∀ i, s.request.cw &&& (opcodeRow i).1 ≠ (opcodeRow i).2) ∨
          (opc ∈ [0x27, 0x28, 0x29, 0x30, 0x31, 0x32, 0x33, 0x34] ∧ s.cfg.ncpu ≤ w / 2 ^ 16 % 256) ∨
          (opc = 0x45 ∧ (sel = 4 ∨ sel = 5) ∧ (w / 16 % 2 = 1 ∨ w % 2 = 1)) ∨
          (opc = 0x45 ∧ ((sel = 2 ∧ address % 4 ≠ 0) ∨ (sel = 3 ∧ address % 8 ≠ 0) ∨
            (sel = 4 ∧ address % 16 ≠ 0) ∨ (sel = 5 ∧ address % 8 ≠ 0))))) ∨
      (r.pic = 0x0008#16 ∧ ∃ p,
        (command (.agl p true) ∧ (x + y < -2 ^ 63 ∨ x + y > 2 ^ 63 - 1)) ∨
        (command (.sgl p true) ∧ (x - y < -2 ^ 63 ∨ x - y > 2 ^ 63 - 1)) ∨
        (command (.slagl p true) ∧ shifted / 2 ^ 63 ≠ sign * (2 ^ n - 1))) ∨
      (∃ i f, command i ∧ r.pic = faultNumber f ∧
        ((∃ k, i.lockKind = some k ∧ s.verdictFor
            (lockSite s.cfg k s.request.ad (BitVec.ofNat 64 s.request.b.toNat)).1 1 = .faulted f) ∨
          ∃ width, i.casWidth = some width ∧ s.verdictFor s.request.ad width = .faulted f)))

/-- The condition code is set by the commands of 10_state.md R23 only; a response that does not set it has
`CC = 0`, and every ending of those commands but a suppressing interrupt sets it, the completing `0x0008` too
(45_long_contracts.md R278). -/
def Obligations.ConditionCodeComesFromItsCommands : Prop :=
  ∀ (i : Instr) (s t : State) (r : Response), s.live → exec i s = .next t → Answered s t r →
    (r.ccv = true → i.setsCc = true) ∧
    (r.ccv = false → r.cc = 0#2) ∧
    (i.setsCc = true → r.st ≠ .pgm ∨ r.pic = 0x0008#16 → r.ccv = true)

/-! ### Family 0, ETOD arithmetic -/

/-- `EADD` and `ESUB` answer the sum and the difference modulo `2^128` and change nothing
(40_etod_arith.md R142, R143). -/
def Obligations.EtodSumAndDifference : Prop :=
  ∀ (p : Bool) (s : State), s.live →
    encode (.eadd p) = commandWord 0x01 0 p ∧ encode (.esub p) = commandWord 0x02 0 p ∧
    (∃ t, exec (.eadd p) s = .next t ∧
      OnlyAnswered s t (doneWide (BitVec.ofNat 128
        ((s.request.a.toNat + s.request.b.toNat) % 2 ^ 128)))) ∧
    (∃ t, exec (.esub p) s = .next t ∧
      OnlyAnswered s t (doneWide (BitVec.ofInt 128
        (((s.request.a.toNat : Int) - s.request.b.toNat) % 2 ^ 128))))

/-- `ESHF` by the signed amount `n`: right by `n`, or left by `-n`, zeros filled in, and nothing changed
(40_etod_arith.md R144). -/
def Obligations.EtodShiftResult : Prop :=
  ∀ (p : Bool) (s : State), s.live →
    encode (.eshf p) = commandWord 0x03 0 p ∧
    let n := (s.request.b.extractLsb' 0 32).toInt
    (0 ≤ n → ∃ t, exec (.eshf p) s = .next t ∧
      OnlyAnswered s t (doneWide (BitVec.ofNat 128 (s.request.a.toNat / 2 ^ n.toNat)))) ∧
    (n < 0 → ∃ t, exec (.eshf p) s = .next t ∧
      OnlyAnswered s t (doneWide (BitVec.ofNat 128 (s.request.a.toNat * 2 ^ (-n).toNat % 2 ^ 128))))

/-- The round trip of `ESHF`: shifting the answer back clears the bits the first shift lost and no other
(40_etod_arith.md R145). -/
def Obligations.EtodShiftRoundTrip : Prop :=
  ∀ (p q : Bool) (s u : State), s.live → u.live →
    (u.request.b.extractLsb' 0 32).toInt = -(s.request.b.extractLsb' 0 32).toInt →
    let n := (s.request.b.extractLsb' 0 32).toInt
    let x := s.request.a.toNat
    (∃ t r, exec (.eshf p) s = .next t ∧ t.responseOf s.active = some r ∧
      (u.request.a = r.r → ∃ v, exec (.eshf q) u = .next v ∧
        (0 ≤ n → OnlyAnswered u v (doneWide (BitVec.ofNat 128 (x / 2 ^ n.toNat * 2 ^ n.toNat)))) ∧
        (n ≤ 0 → OnlyAnswered u v (doneWide (BitVec.ofNat 128 (x % 2 ^ (128 - (-n).toNat))))) ∧
        (0 ≤ n → (v.responseOf u.active = some (doneWide s.request.a) ↔ x % 2 ^ n.toNat = 0))))

/-- `E2T` answers bits 119 to 56 and changes nothing (40_etod_arith.md R146). -/
def Obligations.EtodToTod : Prop :=
  ∀ (p : Bool) (s : State), s.live →
    encode (.e2t p) = commandWord 0x04 0 p ∧
    let high := s.request.a.toNat / 2 ^ 64
    let low := s.request.a.toNat % 2 ^ 64
    ∃ t, exec (.e2t p) s = .next t ∧
      OnlyAnswered s t (doneWide (BitVec.ofNat 128 ((high * 2 ^ 8 % 2 ^ 64) ||| (low / 2 ^ 56))))

/-- `T2E` answers the TOD with zeros around it and changes nothing; `E2T` of the answer is the TOD again, and
`T2E` of an `E2T` clears the bits `E2T` drops (40_etod_arith.md R147). -/
def Obligations.TodToEtodAndBack : Prop :=
  ∀ (p q : Bool) (s u : State), s.live → u.live →
    let tod := s.request.a.toNat % 2 ^ 64
    encode (.t2e p) = commandWord 0x05 0 p ∧
    (∃ t, exec (.t2e p) s = .next t ∧
      OnlyAnswered s t (doneWide (BitVec.ofNat 128
        (tod / 2 ^ 8 * 2 ^ 64 + tod * 2 ^ 56 % 2 ^ 64))) ∧
      (t.responseOf s.active = some (doneWide u.request.a) →
        ∃ v, exec (.e2t q) u = .next v ∧ OnlyAnswered u v (doneWide (BitVec.ofNat 128 tod)))) ∧
    (∃ t, exec (.e2t q) s = .next t ∧
      (t.responseOf s.active = some (doneWide u.request.a) →
        ∃ v, exec (.t2e p) u = .next v ∧
          OnlyAnswered u v (doneWide (BitVec.ofNat 128
            (s.request.a.toNat % 2 ^ 120 / 2 ^ 56 * 2 ^ 56)))))

/-! ### Family 1, host time -/

/-- `H2E` and `H2E.F` convert the given fields by the formula of 41_host_time.md R162, the failed form with the
sub-second field 0, and change nothing; no other word has their operation code (R167). -/
def Obligations.HostFieldsConvert : Prop :=
  ∀ (p : Bool) (s : State), s.live →
    encode (.h2e p) = commandWord 0x10 0 p ∧ encode (.h2eF p) = commandWord 0x10 1 p ∧
    OnlyForms 0x10 p [0, 1] ∧
    let sec := s.request.a.toNat / 2 ^ 64
    let nsec := s.request.a.toNat % 2 ^ 32
    let v : Nat → Int := fun n =>
      (s.cfg.epoch1970Us + (sec * 1000000 : Nat)) * 2 ^ 68 + (n * 2 ^ 65 / 125 : Nat)
    let kept : Nat → Int := fun n =>
      v n / 2 ^ (128 - s.cfg.precisionBits) * 2 ^ (128 - s.cfg.precisionBits)
    (∃ t, exec (.h2e p) s = .next t ∧
      OnlyAnswered s t (doneWide (BitVec.ofInt 128 (kept nsec % 2 ^ 128)))) ∧
    (∃ t, exec (.h2eF p) s = .next t ∧
      OnlyAnswered s t (doneWide (BitVec.ofInt 128 (kept 0 % 2 ^ 128))))

/-- Two precisions give the same host time but for the low bits the coarser one clears, and agree on the
integer microseconds (41_host_time.md R165). -/
def Obligations.PrecisionTiersAgree : Prop :=
  ∀ (p : Bool) (s u : State), s.live → u.live → u.request.a = s.request.a →
    u.cfg.epoch1970Us = s.cfg.epoch1970Us → s.cfg.precisionBits ≤ u.cfg.precisionBits →
    u.cfg.precisionBits ≤ 128 → 60 ≤ s.cfg.precisionBits →
    ∃ t v x y, exec (.h2e p) s = .next t ∧ exec (.h2e p) u = .next v ∧
      OnlyAnswered s t (doneWide x) ∧ OnlyAnswered u v (doneWide y) ∧
      x.toNat = y.toNat / 2 ^ (128 - s.cfg.precisionBits) * 2 ^ (128 - s.cfg.precisionBits) ∧
      x.toNat / 2 ^ 68 = y.toNat / 2 ^ 68

/-- `HCLK` draws one host sample, answers its unsteered time and changes nothing else (41_host_time.md R168);
the sample is the host's next one at the configured resolution, in microseconds times 1000 with
`HOST_RES = US` (R161; that the model floors is log entry 4, the queue of samples log entry 3). -/
def Obligations.HostClockSamples : Prop :=
  ∀ (p : Bool) (s : State), s.live →
    encode (.hclk p) = commandWord 0x11 0 p ∧
    (∃ t, exec (.hclk p) s = .next t ∧
      SampledAndAnswered s t (doneWide (BitVec.ofNat 128 s.hostNow))) ∧
    ∀ h rest, s.hostQueue = h :: rest →
      s.hostSample.sec = h.sec ∧ s.hostSample.fail = h.fail ∧
      (s.cfg.hostRes = .ns → s.hostSample.nsec = h.nsec) ∧
      (s.cfg.hostRes = .us → s.hostSample.nsec.toNat = h.nsec.toNat / 1000 * 1000)

/-! ### Family 2, steering and epoch -/

/-- `FETCH` draws one host sample and answers the steered clock, `high` by the steering formula of
42_steering.md R178 and `low` the host's (R179, R183); nothing else changes. -/
def Obligations.FetchAnswersTheSteeredClock : Prop :=
  ∀ (p : Bool) (s : State), s.live →
    encode (.fetch p) = commandWord 0x23 0 p ∧
    let u : Nat := s.hostNow / 2 ^ 64
    let b : Nat := (u + s.csr.baseOffset.toNat) % 2 ^ 64
    let el := (BitVec.ofInt 64 ((b : Int) - s.csr.startTime.toNat)).toInt
    let rt := s.csr.fineRate.toInt + s.csr.grossRate.toInt
    let high : Word := BitVec.ofInt 64 ((b : Int) + el * rt / 2 ^ s.cfg.rateFracBits)
    let low : Word := BitVec.ofNat 64 (s.hostNow % 2 ^ 64)
    ∃ t, exec (.fetch p) s = .next t ∧ SampledAndAnswered s t (doneWide (high ++ low))

/-- `GETRATE` and `RDCSR` answer the rates, sign-extended, their sum, and the steering state and clock
register, and change nothing; a further form is a specification exception (42_steering.md R182, R192). -/
def Obligations.SteeringReadsAnswer : Prop :=
  ∀ (p : Bool) (s : State), s.live →
    encode (.getrateF p) = commandWord 0x22 0 p ∧ encode (.getrateG p) = commandWord 0x22 1 p ∧
    encode (.getrateT p) = commandWord 0x22 2 p ∧ encode (.rdcsrSt p) = commandWord 0x2C 0 p ∧
    encode (.rdcsrBo p) = commandWord 0x2C 1 p ∧ encode (.rdcsrTv p) = commandWord 0x2C 2 p ∧
    OnlyForms 0x22 p [0, 1, 2] ∧ OnlyForms 0x2C p [0, 1, 2] ∧
    (∃ t, exec (.getrateF p) s = .next t ∧
      OnlyAnswered s t (doneWord (s.csr.fineRate.signExtend 64))) ∧
    (∃ t, exec (.getrateG p) s = .next t ∧
      OnlyAnswered s t (doneWord (s.csr.grossRate.signExtend 64))) ∧
    (∃ t, exec (.getrateT p) s = .next t ∧
      OnlyAnswered s t (doneWord (BitVec.ofInt 64 (s.csr.fineRate.toInt + s.csr.grossRate.toInt)))) ∧
    (∃ t, exec (.rdcsrSt p) s = .next t ∧ OnlyAnswered s t (doneWord s.csr.startTime)) ∧
    (∃ t, exec (.rdcsrBo p) s = .next t ∧ OnlyAnswered s t (doneWord s.csr.baseOffset)) ∧
    (∃ t, exec (.rdcsrTv p) s = .next t ∧ OnlyAnswered s t (doneWide s.todValue))

/-- `CSRRST` with `P = 1`: a new epoch at the host's `high`, offset and rates 0, nothing else written; with
`P = 0` it takes the privileged-operation interrupt (42_steering.md R180). -/
def Obligations.SteeringReset : Prop :=
  ∀ s : State, s.live →
    encode (.csrrst true) = commandWord 0x20 0 true ∧
    (∃ t, exec (.csrrst true) s = .next t ∧
      SteeringWritten s t ⟨BitVec.ofNat 64 (s.hostNow / 2 ^ 64), 0#64, 0#32, 0#32⟩) ∧
    (∃ t, exec (.csrrst false) s = .next t ∧ OnlyAnswered s t (pgmOnly 0x0002#16))

/-- `SETRATE` with `P = 1`: a new epoch at the value steered under the old rate, the offset kept in step, the
named rate replaced and the other kept, nothing else written; with `P = 0` the privileged-operation interrupt,
with another form the specification exception (42_steering.md R181). -/
def Obligations.RateIsSet : Prop :=
  ∀ s : State, s.live →
    encode (.setrateF true) = commandWord 0x21 0 true ∧
    encode (.setrateG true) = commandWord 0x21 1 true ∧ OnlyForms 0x21 true [0, 1] ∧
    let rate : BitVec 32 := BitVec.ofNat 32 s.request.a.toNat
    let start : Word := BitVec.ofNat 64 s.steeredNow
    let offset : Word := BitVec.ofInt 64 ((s.steeredNow : Int) - (s.hostNow / 2 ^ 64 : Nat))
    (∃ t, exec (.setrateF true) s = .next t ∧
      SteeringWritten s t ⟨start, offset, rate, s.csr.grossRate⟩) ∧
    (∃ t, exec (.setrateG true) s = .next t ∧
      SteeringWritten s t ⟨start, offset, s.csr.fineRate, rate⟩) ∧
    (∃ t, exec (.setrateF false) s = .next t ∧ OnlyAnswered s t (pgmOnly 0x0002#16)) ∧
    (∃ t, exec (.setrateG false) s = .next t ∧ OnlyAnswered s t (pgmOnly 0x0002#16))

/-- `SETCLK` with `P = 1`: the epoch starts at the wanted value, the offset is that value less the host's, the
rates are kept, nothing else written; with `P = 0` the interrupt (42_steering.md R184). -/
def Obligations.ClockIsSet : Prop :=
  ∀ s : State, s.live →
    encode (.setclk true) = commandWord 0x24 0 true ∧
    let wanted : Nat := s.request.a.toNat / 2 ^ 64
    (∃ t, exec (.setclk true) s = .next t ∧
      SteeringWritten s t ⟨BitVec.ofNat 64 wanted,
        BitVec.ofInt 64 ((wanted : Int) - (s.hostNow / 2 ^ 64 : Nat)),
        s.csr.fineRate, s.csr.grossRate⟩) ∧
    (∃ t, exec (.setclk false) s = .next t ∧ OnlyAnswered s t (pgmOnly 0x0002#16))

/-- `ADJOFF` with `P = 1`: the epoch starts at the steered value plus the signed amount, the rates are kept,
nothing else written; with `P = 0` the interrupt (42_steering.md R185). -/
def Obligations.OffsetIsAdjusted : Prop :=
  ∀ s : State, s.live →
    encode (.adjoff true) = commandWord 0x25 0 true ∧
    let d := (s.request.a.extractLsb' 0 64).toInt
    (∃ t, exec (.adjoff true) s = .next t ∧
      SteeringWritten s t ⟨BitVec.ofInt 64 (s.steeredNow + d),
        BitVec.ofInt 64 (s.steeredNow + d - (s.hostNow / 2 ^ 64 : Nat)),
        s.csr.fineRate, s.csr.grossRate⟩) ∧
    (∃ t, exec (.adjoff false) s = .next t ∧ OnlyAnswered s t (pgmOnly 0x0002#16))

/-- Continuity: a `FETCH` at the host instant of a `SETRATE` answers the same before and after it, for every
new rate; after an `ADJOFF` by `d` it answers `d` more (42_steering.md R186, R185). -/
def Obligations.SteeringIsContinuous : Prop :=
  ∀ (p q : Bool) (s t f g : State), s.live → f.live → g.live →
    f.cfg = s.cfg → f.csr = s.csr → f.hostSample = s.hostSample →
    g.cfg = s.cfg → g.csr = t.csr → g.hostSample = s.hostSample →
    ∃ f' g' high high' low, exec (.fetch p) f = .next f' ∧ exec (.fetch q) g = .next g' ∧
      Answered f f' (doneWide ((high : Word) ++ (low : Word))) ∧
      Answered g g' (doneWide ((high' : Word) ++ low)) ∧
      (exec (.setrateF true) s = .next t → high' = high) ∧
      (exec (.setrateG true) s = .next t → high' = high) ∧
      (exec (.adjoff true) s = .next t → high' = high + s.request.a.extractLsb' 0 64)

/-- Exactness of `SETCLK`: a `FETCH` at the same host instant answers the wanted value; at a later one it has
moved on by the host's distance and the steering of that distance at the kept rate
(42_steering.md R189). -/
def Obligations.SetClockIsExact : Prop :=
  ∀ (p : Bool) (s t g : State), s.live → g.live → exec (.setclk true) s = .next t →
    g.cfg = s.cfg → g.csr = t.csr →
    let wanted : Word := s.request.a.extractLsb' 64 64
    let dist := ((g.hostNow / 2 ^ 64 : Nat) - (s.hostNow / 2 ^ 64 : Nat) : Int).bmod (2 ^ 64)
    let rt := s.csr.fineRate.toInt + s.csr.grossRate.toInt
    let low : Word := BitVec.ofNat 64 g.hostNow
    ∃ u, exec (.fetch p) g = .next u ∧
      Answered g u (doneWide
        ((wanted + BitVec.ofInt 64 (dist + dist * rt / 2 ^ s.cfg.rateFracBits)) ++ low)) ∧
      (g.hostSample = s.hostSample → u.responseOf g.active = some (doneWide (wanted ++ low)))

/-- `UPDATE` draws one host sample, latches the steered clock whole in the clock register and samples every
slot's timer at it, and answers the clock; the steering state, the coarse lock and storage are untouched. No
other command writes the clock register (42_steering.md R187). -/
def Obligations.UpdateLatchesTheClock : Prop :=
  ∀ (p : Bool) (s : State), s.live →
    encode (.update p) = commandWord 0x26 0 p ∧
    ∃ t, exec (.update p) s = .next t ∧ Answered s t (doneWide s.fetchedNow) ∧
      t.todValue = s.fetchedNow ∧
      t.cpus = s.cpus.map (timerSampled s.cfg.cptShift s.steeredNow) ∧
      t.csr = s.csr ∧ t.glock = s.glock ∧ StorageKept s t ∧ t.cfg = s.cfg ∧ OneHostDraw s t ∧
      ∀ i u v, exec i u = .next v → v.todValue ≠ u.todValue → ∃ q, i = .update q

/-- `GETEPO` and `TODCLK` answer the epoch and the CPU-visible clock of a slot, `SETEPO` with `P = 1` writes
that slot's epoch and nothing else; on a slot the block has not each takes the specification interrupt, and
`SETEPO` with `P = 0` the privileged-operation interrupt first (42_steering.md R188, R190, R191). -/
def Obligations.EpochCommands : Prop :=
  ∀ (p : Bool) (c : BitVec 8) (s : State), s.live →
    encode (.getepo p c) = commandWord 0x27 0 p (cpu := c.toNat) ∧
    encode (.setepo p c) = commandWord 0x28 0 p (cpu := c.toNat) ∧
    encode (.todclk p c) = commandWord 0x29 0 p (cpu := c.toNat) ∧
    (∀ x, s.cpus[c.toNat]? = some x →
      (∃ t, exec (.getepo p c) s = .next t ∧ OnlyAnswered s t (doneWord x.todEpoch)) ∧
      (∃ t, exec (.setepo true c) s = .next t ∧
        SlotsWritten s t (s.cpus.set c.toNat { x with todEpoch := BitVec.ofNat 64 s.request.a.toNat })
          doneEmpty ∧ NoHostDraw s t) ∧
      (∃ t, exec (.todclk p c) s = .next t ∧
        OnlyAnswered s t (doneWord (BitVec.ofNat 64
          ((s.todValue.toNat / 2 ^ 64 &&& s.cfg.todClockMask.toNat) + x.todEpoch.toNat))))) ∧
    (s.cpus.length ≤ c.toNat →
      (∃ t, exec (.getepo p c) s = .next t ∧ OnlyAnswered s t (pgmOnly 0x0006#16)) ∧
      (∃ t, exec (.setepo true c) s = .next t ∧ OnlyAnswered s t (pgmOnly 0x0006#16)) ∧
      (∃ t, exec (.todclk p c) s = .next t ∧ OnlyAnswered s t (pgmOnly 0x0006#16))) ∧
    (∃ t, exec (.setepo false c) s = .next t ∧ OnlyAnswered s t (pgmOnly 0x0002#16))

/-- Within one steering epoch the steered clock of a later host value is never behind that of an earlier one,
whatever the rates, with 44 fraction bits (70_reset_and_hazards.md R370); the distances are below `2^62` so
that neither wraps. -/
def Obligations.SteeringNeverTurnsTheClockBack : Prop :=
  ∀ (p q : Bool) (s u : State), s.live → u.live → u.csr = s.csr → u.cfg = s.cfg →
    s.cfg.rateFracBits = 44 →
    let earlier := elapsedAt s.csr (s.hostNow / 2 ^ 64)
    let later := elapsedAt s.csr (u.hostNow / 2 ^ 64)
    earlier ≤ later → -2 ^ 62 ≤ earlier → later ≤ 2 ^ 62 →
    ∃ t v x y lx ly, exec (.fetch p) s = .next t ∧ exec (.fetch q) u = .next v ∧
      Answered s t (doneWide ((x : Word) ++ (lx : Word))) ∧
      Answered u v (doneWide ((y : Word) ++ (ly : Word))) ∧
      (x - s.csr.startTime).toInt ≤ (y - s.csr.startTime).toInt

/-! ### Family 3, timers -/

/-- `GETCPT` answers the slot's reading at the steered clock of its draw and samples the slot; on a slot the
block has not it takes the specification interrupt (43_timers.md R212, R213, R219). -/
def Obligations.CpuTimerIsRead : Prop :=
  ∀ (p : Bool) (c : BitVec 8) (s : State), s.live →
    encode (.getcpt p c) = commandWord 0x30 0 p (cpu := c.toNat) ∧
    (∀ x, s.cpus[c.toNat]? = some x → ∃ t, exec (.getcpt p c) s = .next t ∧
      SlotsWritten s t (s.cpus.set c.toNat (timerSampled s.cfg.cptShift s.steeredNow x))
        (doneWord (BitVec.ofNat 64 (timerReading s.cfg.cptShift x.cptBase s.steeredNow))) ∧
      OneHostDraw s t) ∧
    (s.cpus.length ≤ c.toNat →
      ∃ t, exec (.getcpt p c) s = .next t ∧ OnlyAnswered s t (pgmOnly 0x0006#16))

/-- `SETCPT` with `P = 1` writes the slot's base and samples the slot, the pending latch not cleared; on a slot
the block has not it takes the specification interrupt, with `P = 0` the privileged-operation interrupt
first (43_timers.md R214). -/
def Obligations.CpuTimerIsSet : Prop :=
  ∀ (c : BitVec 8) (s : State), s.live →
    encode (.setcpt true c) = commandWord 0x31 0 true (cpu := c.toNat) ∧
    (∀ x, s.cpus[c.toNat]? = some x →
      let v := (s.request.a.extractLsb' 0 64).toInt
      let base : Word := BitVec.ofInt 64 (s.steeredNow + v / 2 ^ s.cfg.cptShift)
      ∃ t, exec (.setcpt true c) s = .next t ∧
        SlotsWritten s t
          (s.cpus.set c.toNat (timerSampled s.cfg.cptShift s.steeredNow { x with cptBase := base }))
          doneEmpty ∧
        OneHostDraw s t) ∧
    (s.cpus.length ≤ c.toNat →
      ∃ t, exec (.setcpt true c) s = .next t ∧ OnlyAnswered s t (pgmOnly 0x0006#16)) ∧
    (∃ t, exec (.setcpt false c) s = .next t ∧ OnlyAnswered s t (pgmOnly 0x0002#16))

/-- `CPTPND` samples the slot, answers the pending latch as the sample leaves it, and clears it; on a slot the
block has not it takes the specification interrupt (43_timers.md R215). -/
def Obligations.PendingIsFetchedAndReset : Prop :=
  ∀ (p : Bool) (c : BitVec 8) (s : State), s.live →
    encode (.cptpnd p c) = commandWord 0x32 0 p (cpu := c.toNat) ∧
    (∀ x, s.cpus[c.toNat]? = some x →
      let y := timerSampled s.cfg.cptShift s.steeredNow x
      ∃ t, exec (.cptpnd p c) s = .next t ∧
        SlotsWritten s t (s.cpus.set c.toNat { y with cptPending := false })
          (doneWide (BitVec.ofNat 128 y.cptPending.toNat)) ∧
        OneHostDraw s t) ∧
    (s.cpus.length ≤ c.toNat →
      ∃ t, exec (.cptpnd p c) s = .next t ∧ OnlyAnswered s t (pgmOnly 0x0006#16))

/-- A `GETCPT` at the host instant of a `SETCPT` of `v` answers `v` with its low `CPT_SHIFT` bits cleared, for
negative `v` too (43_timers.md R214). -/
def Obligations.CpuTimerReadsBack : Prop :=
  ∀ (p : Bool) (c : BitVec 8) (s t g : State), s.live → g.live → c.toNat < s.cpus.length →
    exec (.setcpt true c) s = .next t → g.cpus = t.cpus → g.csr = s.csr → g.cfg = s.cfg →
    g.hostSample = s.hostSample →
    ∃ u, exec (.getcpt p c) g = .next u ∧
      Answered g u (doneWide (BitVec.ofNat 128
        (s.request.a.toNat % 2 ^ 64 / 2 ^ s.cfg.cptShift * 2 ^ s.cfg.cptShift)))

/-- The sign-flip latch over any run of samples that all read negative: an armed slot ends pending and
disarmed, a slot not armed does not change, so a pending latch that was cleared stays clear; a sample that is
not negative arms the slot again and keeps the latch (43_timers.md R219, R216). -/
def Obligations.ACrossingIsLatchedOnce : Prop :=
  ∀ (shift : Nat) (c : Cpu) (samples : List Word),
    (∀ n ∈ samples, 2 ^ 63 ≤ timerReading shift c.cptBase n.toNat) →
    let after := samples.foldl (fun x n => cptSample shift n x) c
    (c.cptArmed = true → samples ≠ [] →
      after = { c with cptPending := true, cptArmed := false } ∧
      samples.foldl (fun x n => cptSample shift n x) { after with cptPending := false } =
        { after with cptPending := false }) ∧
    (c.cptArmed = false → after = c) ∧
    ∀ n : Word, timerReading shift c.cptBase n.toNat < 2 ^ 63 →
      cptSample shift n after = { after with cptArmed := true }

/-- `SETIT` writes the slot's interval-timer base and nothing else; `GETIT` answers the ticks to it inside the
range of 43_timers.md R218 and some 64 bits outside it (93_implementation_defined.md U5, the model's free
value of log entry 12), and writes nothing; on a slot the block has not each takes the specification
interrupt (R220, R221). -/
def Obligations.IntervalTimerIsSetAndRead : Prop :=
  ∀ (p : Bool) (c : BitVec 8) (s : State), s.live →
    encode (.setit p c) = commandWord 0x34 0 p (cpu := c.toNat) ∧
    encode (.getit p c) = commandWord 0x33 0 p (cpu := c.toNat) ∧
    (∀ x, s.cpus[c.toNat]? = some x →
      let ticks := (s.request.a.extractLsb' 0 32).toInt
      let d := ((x.itBase.toNat : Int) - s.steeredNow).bmod (2 ^ 64)
      (∃ t, exec (.setit p c) s = .next t ∧
        SlotsWritten s t
          (s.cpus.set c.toNat { x with
            itBase := BitVec.ofInt 64 (s.steeredNow + (ticks * 625).tdiv 3) })
          doneEmpty ∧
        OneHostDraw s t) ∧
      ∃ t v, exec (.getit p c) s = .next t ∧ SampledAndAnswered s t (doneWord v) ∧
        (d.natAbs ≤ (2 ^ 63 - 1) / 3 →
          v = (BitVec.ofInt 32 ((d * 3).tdiv 625)).signExtend 64)) ∧
    (s.cpus.length ≤ c.toNat →
      (∃ t, exec (.setit p c) s = .next t ∧ OnlyAnswered s t (pgmOnly 0x0006#16)) ∧
      (∃ t, exec (.getit p c) s = .next t ∧ OnlyAnswered s t (pgmOnly 0x0006#16)))

/-- `IT2E` and `E2IT` convert with exact products truncated toward zero and change nothing; outside its range
`E2IT` answers some 64 bits (43_timers.md R217, R218; the free value of log entry 12). -/
def Obligations.TicksConvert : Prop :=
  ∀ (p : Bool) (s : State), s.live →
    encode (.it2e p) = commandWord 0x35 0 p ∧ encode (.e2it p) = commandWord 0x36 0 p ∧
    let ticks := (s.request.a.extractLsb' 0 32).toInt
    let d := (s.request.a.extractLsb' 0 64).toInt
    (∃ t, exec (.it2e p) s = .next t ∧
      OnlyAnswered s t (doneWord (BitVec.ofInt 64 ((ticks * 625).tdiv 3)))) ∧
    (∃ t v, exec (.e2it p) s = .next t ∧ OnlyAnswered s t (doneWord v) ∧
      (d.natAbs ≤ 3074457345618258602 →
        v = (BitVec.ofInt 32 ((d * 3).tdiv 625)).signExtend 64))

/-- The round trip of the tick conversions: the ticks again when they are a multiple of 3, else one less in
size (43_timers.md R218). -/
def Obligations.TicksRoundTrip : Prop :=
  ∀ (p q : Bool) (s u : State), s.live → u.live →
    let ticks := (s.request.a.extractLsb' 0 32).toInt
    ∃ t r, exec (.it2e p) s = .next t ∧ Answered s t r ∧
      (u.request.a = r.r → ∃ v x, exec (.e2it q) u = .next v ∧ Answered u v (doneWord x) ∧
        (ticks % 3 = 0 → x.toInt = ticks) ∧
        (ticks % 3 ≠ 0 → x.toInt = ticks - ticks.sign))

/-- `ADJOFF`, `SETCLK` and `CSRRST` move the clock, at their own host instant, by a jump, and every timer of every
slot with it: a CPU timer reads `2^CPT_SHIFT` times the jump less, an interval timer the ticks of a distance
that is the jump less, inside the range of 43_timers.md R218. `SETEPO` moves none of them, whichever slot it
names (43_timers.md R211, 70_reset_and_hazards.md R369). -/
def Obligations.AClockJumpMovesTheTimers : Prop :=
  ∀ (i : Instr) (jump : Word) (p q : Bool) (c : BitVec 8) (s t f g : State) (x : Cpu),
    s.live → f.live → g.live → s.cpus[c.toNat]? = some x →
    ((i = .adjoff true ∧ jump = s.request.a.extractLsb' 0 64) ∨
      (i = .setclk true ∧ jump = s.request.a.extractLsb' 64 64 - BitVec.ofNat 64 s.steeredNow) ∨
      (i = .csrrst true ∧ jump = BitVec.ofNat 64 (s.hostNow / 2 ^ 64) - BitVec.ofNat 64 s.steeredNow) ∨
      ((∃ k, i = .setepo true k) ∧ jump = 0#64)) →
    exec i s = .next t →
    f.cfg = s.cfg → f.csr = s.csr → f.hostSample = s.hostSample → f.cpus = s.cpus →
    g.cfg = s.cfg → g.csr = t.csr → g.hostSample = s.hostSample → g.cpus = t.cpus →
    let before := (x.itBase - BitVec.ofNat 64 s.steeredNow).toInt
    let after := (x.itBase - BitVec.ofNat 64 s.steeredNow - jump).toInt
    let ticks : Int → Word := fun d => (BitVec.ofInt 32 ((d * 3).tdiv 625)).signExtend 64
    (∃ f' g' high low, exec (.fetch p) f = .next f' ∧ exec (.fetch q) g = .next g' ∧
      Answered f f' (doneWide ((high : Word) ++ (low : Word))) ∧
      Answered g g' (doneWide ((high + jump) ++ low))) ∧
    (∃ f' g' v, exec (.getcpt p c) f = .next f' ∧ exec (.getcpt q c) g = .next g' ∧
      Answered f f' (doneWord v) ∧
      Answered g g' (doneWord (v - BitVec.ofNat 64 (jump.toNat * 2 ^ s.cfg.cptShift)))) ∧
    ∃ f' g' v w, exec (.getit p c) f = .next f' ∧ exec (.getit q c) g = .next g' ∧
      Answered f f' (doneWord v) ∧ Answered g g' (doneWord w) ∧
      (before.natAbs ≤ (2 ^ 63 - 1) / 3 → v = ticks before) ∧
      (after.natAbs ≤ (2 ^ 63 - 1) / 3 → w = ticks after)

/-! ### Family 4, locks -/

/-- The lock sites: the byte address and the mask of each target kind, under both strategies
(44_sync.md R243). -/
def Obligations.LockSites : Prop :=
  ∀ (c : Config) (ad b : Word),
    lockSite c .rcp ad b = (ad, c.rcpLock) ∧
    lockSite c .sca ad b = (ad, c.scaIpteLock) ∧
    (c.useSkaipAsLock = true → lockSite c .pgste ad b = (b, c.skaipMask)) ∧
    (c.useSkaipAsLock = false →
      (lockSite c .pgste ad b).1.toNat = (ad.toNat + c.pgsteRcpOffset) % 2 ^ 64 ∧
      (lockSite c .pgste ad b).2 = c.rcpLock)

/-- `LOCK`, each form: the access is asked once, when the command is issued; a fault ends it with its code and
nothing changed. With the access granted, or already held, it sets the bit of a clear lock byte and both key
flags of its frame and ends `DONE`; on a set bit it waits and nothing changes but the question asked. Nothing
else is written, and a further form is a specification exception (44_sync.md R245, R248). The model's own: the
verdicts drawn stand in a list (log entry 5), a held command is run again by a step that changes nothing
(log entry 8), and a wait or an access fault records no event (log entry 13). -/
def Obligations.LockAcquiresOrWaits : Prop :=
  ∀ (p : Bool) (k : LockKind) (s : State), s.live → Memory.wf s.mem = true →
    encode (lockCommand p k) = commandWord 0x40 (lockSel k) p ∧ OnlyForms 0x40 p [0, 1, 2] ∧
    let a := (lockSite s.cfg k s.request.ad (BitVec.ofNat 64 s.request.b.toNat)).1
    let mask := (lockSite s.cfg k s.request.ad (BitVec.ofNat 64 s.request.b.toNat)).2
    let verdicts := if s.heldAt s.active = true then s.verdicts else s.verdictsLeft
    (∀ f, s.heldAt s.active = false → s.verdictFor a 1 = .faulted f →
      ∃ t, exec (lockCommand p k) s = .next t ∧ Answered s t (pgmOnly (faultNumber f)) ∧
        BlockKept s t ∧ NoHostDraw s t ∧ t.verdicts = s.verdictsLeft) ∧
    ((s.heldAt s.active = true ∨ s.verdictFor a 1 = .granted) →
      (s.byteAt a &&& mask = 0#8 → ∃ t, exec (lockCommand p k) s = .next t ∧
        StoredAt s t a 1 doneEmpty ∧ t.byteAt a = s.byteAt a ||| mask ∧
        t.keyFlags (frameOf s.cfg a) = ⟨true, true⟩ ∧ t.verdicts = verdicts ∧
        t.history = .rmw s.active a 1 (BitVec.ofNat 128 (s.byteAt a).toNat)
          (BitVec.ofNat 128 (s.byteAt a ||| mask).toNat) true :: s.history) ∧
      (s.byteAt a &&& mask ≠ 0#8 → ∃ t, exec (lockCommand p k) s = .next t ∧
        Waiting s t ∧ BlockKept s t ∧ NoHostDraw s t ∧ t.verdicts = verdicts))

/-- `TRYLOCK`, each form: an access fault ends it with its code and nothing changed. With the access granted it
sets the bit of a clear lock byte and both key flags of its frame and ends `DONE`; on a set bit it answers `BUSY`
with nothing written, memory nor key flags. It never waits, and a further form is a specification exception
(44_sync.md R246, R248). The model's own: the verdicts drawn stand in a list (log entry 5), and an access fault
records no event (log entry 13). -/
def Obligations.TryLockAcquiresOrIsBusy : Prop :=
  ∀ (p : Bool) (k : LockKind) (s : State), s.live → Memory.wf s.mem = true →
    encode (tryLockCommand p k) = commandWord 0x41 (lockSel k) p ∧ OnlyForms 0x41 p [0, 1, 2] ∧
    let a := (lockSite s.cfg k s.request.ad (BitVec.ofNat 64 s.request.b.toNat)).1
    let mask := (lockSite s.cfg k s.request.ad (BitVec.ofNat 64 s.request.b.toNat)).2
    (∀ f, s.verdictFor a 1 = .faulted f → ∃ t, exec (tryLockCommand p k) s = .next t ∧
      Answered s t (pgmOnly (faultNumber f)) ∧ BlockKept s t ∧ NoHostDraw s t ∧
      t.verdicts = s.verdictsLeft) ∧
    (s.verdictFor a 1 = .granted →
      (s.byteAt a &&& mask = 0#8 → ∃ t, exec (tryLockCommand p k) s = .next t ∧
        StoredAt s t a 1 doneEmpty ∧ t.byteAt a = s.byteAt a ||| mask ∧
        t.keyFlags (frameOf s.cfg a) = ⟨true, true⟩ ∧ t.verdicts = s.verdictsLeft ∧
        t.history = .rmw s.active a 1 (BitVec.ofNat 128 (s.byteAt a).toNat)
          (BitVec.ofNat 128 (s.byteAt a ||| mask).toNat) true :: s.history) ∧
      (s.byteAt a &&& mask ≠ 0#8 → ∃ t, exec (tryLockCommand p k) s = .next t ∧
        Answered s t ⟨.busy, 0#16, 0#2, false, false, 0#128⟩ ∧ BlockKept s t ∧
        t.hostQueue = s.hostQueue ∧ t.verdicts = s.verdictsLeft))

/-- `UNLOCK`, each form: an access fault ends it with its code and nothing changed. With the access granted it
clears the bit, whether it was set or not and whoever set it, keeps the seven other bits, sets both key flags of
the frame and ends `DONE`; nothing else is written, and a further form is a specification exception
(44_sync.md R249, R248, R247). The model's own: the verdicts drawn stand in a list (log entry 5), and an access
fault records no event (log entry 13). -/
def Obligations.UnlockClearsTheBit : Prop :=
  ∀ (p : Bool) (k : LockKind) (s : State), s.live → Memory.wf s.mem = true →
    encode (unlockCommand p k) = commandWord 0x42 (lockSel k) p ∧ OnlyForms 0x42 p [0, 1, 2] ∧
    let a := (lockSite s.cfg k s.request.ad (BitVec.ofNat 64 s.request.b.toNat)).1
    let mask := (lockSite s.cfg k s.request.ad (BitVec.ofNat 64 s.request.b.toNat)).2
    (∀ f, s.verdictFor a 1 = .faulted f → ∃ t, exec (unlockCommand p k) s = .next t ∧
      Answered s t (pgmOnly (faultNumber f)) ∧ BlockKept s t ∧ NoHostDraw s t ∧
      t.verdicts = s.verdictsLeft) ∧
    (s.verdictFor a 1 = .granted →
      ∃ t, exec (unlockCommand p k) s = .next t ∧
        StoredAt s t a 1 doneEmpty ∧
        (∀ j < 8, (t.byteAt a).getLsbD j = ((s.byteAt a).getLsbD j && !mask.getLsbD j)) ∧
        t.keyFlags (frameOf s.cfg a) = ⟨true, true⟩ ∧ t.verdicts = s.verdictsLeft)

/-- `GACQ` takes the coarse lock for its port when it is free and waits otherwise, also when its own port holds
it; `GREL` frees it for its holder and changes nothing otherwise, and answers `DONE` either way
(44_sync.md R253, R254). The model's own: a waiting `GACQ` is run again by a step that changes nothing
(log entry 8), and a wait or a `GREL` without effect records no event (log entry 13). -/
def Obligations.CoarseLockIsTakenAndFreed : Prop :=
  ∀ (p : Bool) (s : State), s.live →
    encode (.gacq p) = commandWord 0x43 0 p ∧ encode (.grel p) = commandWord 0x44 0 p ∧
    (s.glock = .free → ∃ t, exec (.gacq p) s = .next t ∧ Answered s t doneEmpty ∧
      t.glock = .held s.active ∧ ClockKept s t ∧ t.cpus = s.cpus ∧ StorageKept s t ∧ t.cfg = s.cfg ∧
      t.hostQueue = s.hostQueue ∧ t.history = .acq s.active :: s.history) ∧
    (s.glock ≠ .free → ∃ t, exec (.gacq p) s = .next t ∧ Waiting s t ∧ BlockKept s t ∧ NoHostDraw s t) ∧
    (s.glock = .held s.active → ∃ t, exec (.grel p) s = .next t ∧ Answered s t doneEmpty ∧
      t.glock = .free ∧ ClockKept s t ∧ t.cpus = s.cpus ∧ StorageKept s t ∧ t.cfg = s.cfg ∧
      t.hostQueue = s.hostQueue ∧ t.history = .rel s.active :: s.history) ∧
    (s.glock ≠ .held s.active → ∃ t, exec (.grel p) s = .next t ∧ OnlyAnswered s t doneEmpty)

/-- Mutual exclusion of a lock: a command keeps it, that a holder's bit is set and that there is at most one
holder, provided an `UNLOCK` is of a lock its port holds and no compare and swap covers the lock byte
(44_sync.md R247, R252; the caller contracts of 93_implementation_defined.md U6, U8). -/
def Obligations.LocksExcludeEachOther : Prop :=
  ∀ (a : Word) (mask : Byte) (i : Instr) (s t : State), s.wf = true → isOneBitMask mask = true →
    unlockOnlyByHolder i s → lockByteOnlyViaLock a i s → LockExclusive a mask s →
    exec i s = .next t → LockExclusive a mask t

/-! ### Family 4, compare and swap -/

/-- A compare and swap of each form, `CAS.W`, `CAS.G`, `CAS.D`, `CAS.Q`, of `n` bytes, its checks passed
(44_sync.md R261, R264, R266, R267 to R271). It serializes, then asks its access; a fault ends it with its code,
nothing changed. An operand equal to the compare value byte for byte, big-endian: it is replaced, both key flags
of its frame are set, `CC = 0`, the compare value is answered. An operand that differs in some byte: memory is
unchanged, the reference flag is set and the change flag kept, `CC = 1`, the value in memory is answered, as
`DONE` or, with `I = 1`, as an interception with the configured reason. Both serialize again, and write nothing
else. The model's own: the verdicts drawn stand in a list (log entry 5), a mismatch records its access with the
old value as the new one and nothing written, and an access fault records none (log entry 13). -/
def Obligations.CompareAndSwapSwapsOrReloads : Prop :=
  ∀ (i : Instr) (n : Nat) (s : State), i.casWidth = some n → i.pairEven = true → s.live →
    Memory.wf s.mem = true → s.request.ad.toNat % n = 0 →
    let a := s.request.ad
    (∀ f, s.verdictFor a n = .faulted f → ∃ t, exec i s = .next t ∧
      Answered s t (pgmOnly (faultNumber f)) ∧ BlockKept s t ∧ t.hostQueue = s.hostQueue ∧
      t.verdicts = s.verdictsLeft ∧ t.history = .ser s.active :: s.history) ∧
    (s.verdictFor a n = .granted →
      ((∀ j < n, s.byteAt (a + BitVec.ofNat 64 j) = operandByte n s.request.a j) → ∃ t,
        exec i s = .next t ∧
        StoredAt s t a n ⟨.done, 0#16, 0#2, true, false, operandValue n s.request.a⟩ ∧
        (∀ j < n, t.byteAt (a + BitVec.ofNat 64 j) = operandByte n s.request.b j) ∧
        t.keyFlags (frameOf s.cfg a) = ⟨true, true⟩ ∧ t.verdicts = s.verdictsLeft ∧
        t.history = .ser s.active ::
          .rmw s.active a n (operandValue n s.request.a) (operandValue n s.request.b) true ::
          .ser s.active :: s.history) ∧
      ((∃ j < n, s.byteAt (a + BitVec.ofNat 64 j) ≠ operandByte n s.request.a j) → ∃ t old,
        exec i s = .next t ∧ operandValue n old = old ∧
        (∀ j < n, operandByte n old j = s.byteAt (a + BitVec.ofNat 64 j)) ∧
        StoredAt s t a n
          (if i.interceptBit = true then ⟨.icpt, s.cfg.icptCsReason, 1#2, true, false, old⟩
            else ⟨.done, 0#16, 1#2, true, false, old⟩) ∧
        (∀ b, t.byteAt b = s.byteAt b) ∧
        t.keyFlags (frameOf s.cfg a) = ⟨true, (s.keyFlags (frameOf s.cfg a)).c⟩ ∧
        t.verdicts = s.verdictsLeft ∧
        t.history = .ser s.active :: .rmw s.active a n old old false ::
          .ser s.active :: s.history))

/-- `MemWrite` then `MemRead` of 1, 4, 8 or 16 bytes at one address gives the value's low bytes, the byte at the
address is the most significant, and every byte outside is as before (20_memory.md R74). -/
def Obligations.MemoryReadsBackBigEndian : Prop :=
  ∀ (m : Memory) (a : Word) (n : Nat) (v : Wide), Memory.wf m = true → n ∈ [1, 4, 8, 16] →
    memRead (memWrite m a n v) a n = operandValue n v ∧
    (∀ j < n, memByte (memWrite m a n v) (a + BitVec.ofNat 64 j) = operandByte n v j) ∧
    (∀ b, (∀ j < n, b ≠ a + BitVec.ofNat 64 j) → memByte (memWrite m a n v) b = memByte m b) ∧
    (∀ j < n, operandByte n (memRead m a n) j = memByte m (a + BitVec.ofNat 64 j))

/-! ### Family 5, long-operation contracts -/

/-- `AGL` and `SGL`: the wrapped sum and difference, the condition code, and on overflow under the mask the
completing interrupt; nothing of the block changes (45_long_contracts.md R280, R281, R278). -/
def Obligations.SignedAddAndSubtract : Prop :=
  ∀ (p m : Bool) (s : State), s.live → s.cfg.hasLong = true →
    encode (.agl p m) = commandWord 0x50 0 p (m := m) ∧
    encode (.sgl p m) = commandWord 0x51 0 p (m := m) ∧
    let x := (s.request.a.extractLsb' 0 64).toInt
    let y := (s.request.b.extractLsb' 0 64).toInt
    (∃ t, exec (.agl p m) s = .next t ∧
      OnlyAnswered s t (signedAnswer (x + y < -2 ^ 63 ∨ x + y > 2 ^ 63 - 1) m (BitVec.ofInt 64 (x + y)))) ∧
    (∃ t, exec (.sgl p m) s = .next t ∧
      OnlyAnswered s t (signedAnswer (x - y < -2 ^ 63 ∨ x - y > 2 ^ 63 - 1) m (BitVec.ofInt 64 (x - y))))

/-- `ALCGL` and `SLBGL` give the exact sum with the carry and difference with the borrow of `CCI[1]`, modulo
`2^64`, with the carry out and the no-borrow in the condition code; nothing of the block changes
(45_long_contracts.md R282, R283, R277). -/
def Obligations.LogicalAddAndSubtract : Prop :=
  ∀ (p : Bool) (cci : BitVec 2) (s : State), s.live → s.cfg.hasLong = true →
    encode (.alcgl p cci) = commandWord 0x52 0 p (cci := cci.toNat) ∧
    encode (.slbgl p cci) = commandWord 0x53 0 p (cci := cci.toNat) ∧
    let x := s.request.a.toNat % 2 ^ 64
    let y := s.request.b.toNat % 2 ^ 64
    let sum := x + y + cci.toNat / 2
    let difference : Int := (x : Int) - y - (1 - (cci.toNat / 2 : Nat))
    (∃ t, exec (.alcgl p cci) s = .next t ∧
      OnlyAnswered s t ⟨.done, 0#16, logicalCode (2 ^ 64 ≤ sum) (BitVec.ofNat 64 sum), true, false,
        BitVec.ofNat 128 (sum % 2 ^ 64)⟩) ∧
    (∃ t, exec (.slbgl p cci) s = .next t ∧
      OnlyAnswered s t ⟨.done, 0#16, logicalCode (0 ≤ difference) (BitVec.ofInt 64 difference), true, false,
        BitVec.ofInt 128 (difference % 2 ^ 64)⟩)

/-- `SLAGL`: the sign bit kept, the 63-bit field shifted by the amount modulo 64 and cut, overflow when some bit
shifted out differs from the sign, the condition code and the completing interrupt as for the other signed
forms; nothing of the block changes (45_long_contracts.md R290, R278). -/
def Obligations.SignedShiftLeft : Prop :=
  ∀ (p m : Bool) (s : State), s.live → s.cfg.hasLong = true →
    encode (.slagl p m) = commandWord 0x54 0 p (m := m) ∧
    let sign := s.request.a.toNat / 2 ^ 63 % 2
    let n := s.request.b.toNat % 64
    let w := s.request.a.toNat % 2 ^ 63 * 2 ^ n
    let r : Word := BitVec.ofNat 64 (sign * 2 ^ 63 + w % 2 ^ 63)
    ∃ t, exec (.slagl p m) s = .next t ∧
      OnlyAnswered s t (signedAnswer (w / 2 ^ 63 ≠ sign * (2 ^ n - 1)) m r)

/-- `BCTGL` and `BRCTGL`: the count less one, wrapped; taken exactly when it is not 0; the target or the next
sequential address answered above it; no condition code, nothing of the block changes
(45_long_contracts.md R296, R297). -/
def Obligations.BranchOnCount : Prop :=
  ∀ (p : Bool) (s : State), s.live → s.cfg.hasLong = true →
    encode (.bctgl p) = commandWord 0x55 0 p ∧ encode (.brctgl p) = commandWord 0x56 0 p ∧
    let count := s.request.a.toNat % 2 ^ 64
    let left := (count + (2 ^ 64 - 1)) % 2 ^ 64
    let next := s.request.a.toNat / 2 ^ 64
    let target := s.request.b.toNat % 2 ^ 64
    let relative := (s.request.ad.toNat + (s.request.b.extractLsb' 0 64).toInt) % 2 ^ 64
    (left ≠ 0 →
      (∃ t, exec (.bctgl p) s = .next t ∧
        OnlyAnswered s t ⟨.done, 0#16, 0#2, false, true, BitVec.ofNat 128 (target * 2 ^ 64 + left)⟩) ∧
      (∃ t, exec (.brctgl p) s = .next t ∧
        OnlyAnswered s t ⟨.done, 0#16, 0#2, false, true, BitVec.ofInt 128 (relative * 2 ^ 64 + left)⟩)) ∧
    (left = 0 →
      (∃ t, exec (.bctgl p) s = .next t ∧
        OnlyAnswered s t ⟨.done, 0#16, 0#2, false, false, BitVec.ofNat 128 (next * 2 ^ 64)⟩) ∧
      (∃ t, exec (.brctgl p) s = .next t ∧
        OnlyAnswered s t ⟨.done, 0#16, 0#2, false, false, BitVec.ofNat 128 (next * 2 ^ 64)⟩))

/-- Three chained `ALCGL`, the condition code of each passed to the next, give the 192-bit sum and its carry out
(45_long_contracts.md R284). -/
def Obligations.AddWithCarryChains : Prop :=
  ∀ (p q r : Bool) (s0 s1 s2 : State), s0.live → s1.live → s2.live →
    s0.cfg.hasLong = true → s1.cfg.hasLong = true → s2.cfg.hasLong = true →
    let limbs : (Request → Wide) → Nat := fun f =>
      (f s2.request).toNat % 2 ^ 64 * 2 ^ 128 + (f s1.request).toNat % 2 ^ 64 * 2 ^ 64 +
        (f s0.request).toNat % 2 ^ 64
    let sum := limbs (fun x => x.a) + limbs (fun x => x.b)
    ∃ t0 t1 t2 r0 r1 r2, exec (.alcgl p 0#2) s0 = .next t0 ∧ Answered s0 t0 r0 ∧
      exec (.alcgl q r0.cc) s1 = .next t1 ∧ Answered s1 t1 r1 ∧
      exec (.alcgl r r1.cc) s2 = .next t2 ∧ Answered s2 t2 r2 ∧
      r2.r.toNat * 2 ^ 128 + r1.r.toNat * 2 ^ 64 + r0.r.toNat = sum % 2 ^ 192 ∧
      r2.cc.toNat / 2 = sum / 2 ^ 192

end
end

