-- ==== Sys2Proof/Laws/Access.lean ====
section
/-! SUPPORT. The rules of an `AccessCheck` parameter stand for every function of the address, the width and the
kind (spec/00_scope.md R6). -/

namespace Sys2Proof.Machine

/-- The rules that list the values of `f` at `keys`. -/
def rulesOf (f : Word → Nat → AccessKind → Verdict) (keys : List (Word × Nat)) : List AccessRule :=
  keys.map fun k => ⟨k.1, k.2, .rmw, f k.1 k.2 .rmw⟩

theorem accessValue_rulesOf (f : Word → Nat → AccessKind → Verdict) (d : Verdict) (a : Word) (n : Nat)
    (keys : List (Word × Nat)) (h : (a, n) ∈ keys) : accessValue d a n .rmw (rulesOf f keys) = f a n .rmw := by
  induction keys with
  | nil => cases h
  | cons k rest ih =>
    simp only [rulesOf, List.map_cons, accessValue]
    by_cases hk : k.1 = a ∧ k.2 = n
    · obtain ⟨rfl, rfl⟩ := hk; simp
    · rw [if_neg (by simpa using hk)]
      rcases List.mem_cons.mp h with rfl | h
      · exact absurd ⟨rfl, rfl⟩ hk
      · exact ih h

/-- Every word is in the list of all words. -/
theorem mem_words {n w : Nat} (hn : n = 2 ^ w) (a : BitVec w) : a ∈ (List.range n).map (BitVec.ofNat w) :=
  List.mem_map.mpr ⟨a.toNat, List.mem_range.mpr (hn ▸ a.isLt), by simp⟩

/-- Every `AccessCheck` function, on the accesses the block makes, is given by some rules. -/
theorem accessValue_complete (f : Word → Nat → AccessKind → Verdict) (widths : List Nat) :
    ∃ rules, ∀ d a, ∀ n ∈ widths, ∀ k, accessValue d a n k rules = f a n k := by
  obtain ⟨m, hm⟩ : ∃ m, m = 2 ^ 64 := ⟨_, rfl⟩
  refine ⟨rulesOf f (((List.range m).map (BitVec.ofNat 64)) ×ˢ widths), fun d a n hn k => ?_⟩
  cases k
  exact accessValue_rulesOf f d a n _ (List.mem_product.mpr ⟨mem_words hm a, hn⟩)

end Sys2Proof.Machine
end

