-- ==== Sys2Proof/Laws/Encode.lean ====
section
/-! SUPPORT. Cutting a command word into its fields and laying the fields out are inverse to each other. -/

namespace Sys2Proof

theorem toNat_append_add {m n : Nat} (a : BitVec m) (b : BitVec n) :
    (a ++ b).toNat = a.toNat * 2 ^ n + b.toNat := by
  rw [BitVec.toNat_append, ← Nat.shiftLeft_add_eq_or_of_lt b.isLt, Nat.shiftLeft_eq]

/-- The number a command word is, from the places of its fields (30_encoding.md R102). -/
theorem packFields_toNat (f : Fields) :
    (packFields f).toNat = f.opc.toNat * 2 ^ 24 + f.cpu.toNat * 2 ^ 16 + f.sel.toNat * 2 ^ 12 +
      f.p.toNat * 2 ^ 11 + f.m.toNat * 2 ^ 10 + f.cci.toNat * 2 ^ 8 + f.r1.toNat * 2 ^ 4 + f.r3.toNat := by
  simp only [packFields, toNat_append_add, BitVec.toNat_ofBool]
  omega

theorem bit_toNat (w : CmdWord) (k : Nat) : (w.getLsbD k).toNat = w.toNat / 2 ^ k % 2 := by
  rw [BitVec.getLsbD, Nat.testBit_eq_decide_div_mod_eq]
  rcases Nat.mod_two_eq_zero_or_one (w.toNat / 2 ^ k) with h | h <;> rw [h] <;> rfl

/-- The fields of a word as numbers. -/
theorem unpackFields_toNat (w : CmdWord) :
    (unpackFields w).opc.toNat = w.toNat / 2 ^ 24 ∧ (unpackFields w).cpu.toNat = w.toNat / 2 ^ 16 % 256 ∧
    (unpackFields w).sel.toNat = w.toNat / 2 ^ 12 % 16 ∧ (unpackFields w).p.toNat = w.toNat / 2 ^ 11 % 2 ∧
    (unpackFields w).m.toNat = w.toNat / 2 ^ 10 % 2 ∧ (unpackFields w).cci.toNat = w.toNat / 2 ^ 8 % 4 ∧
    (unpackFields w).r1.toNat = w.toNat / 2 ^ 4 % 16 ∧ (unpackFields w).r3.toNat = w.toNat % 16 := by
  have hw := w.isLt
  refine ⟨?_, ?_, ?_, bit_toNat w 11, bit_toNat w 10, ?_, ?_, ?_⟩ <;>
    simp only [unpackFields, BitVec.extractLsb'_toNat, Nat.shiftRight_eq_div_pow] <;> omega

theorem bool_eq_of_toNat {a b : Bool} (h : a.toNat = b.toNat) : a = b := by
  cases a <;> cases b <;> simp at h ⊢

/-- Fields with the same numbers are the same fields. -/
theorem Fields.eq_of_toNat {f g : Fields} (h1 : f.opc.toNat = g.opc.toNat) (h2 : f.cpu.toNat = g.cpu.toNat)
    (h3 : f.sel.toNat = g.sel.toNat) (h4 : f.p.toNat = g.p.toNat) (h5 : f.m.toNat = g.m.toNat)
    (h6 : f.cci.toNat = g.cci.toNat) (h7 : f.r1.toNat = g.r1.toNat) (h8 : f.r3.toNat = g.r3.toNat) :
    f = g := by
  obtain ⟨a1, a2, a3, a4, a5, a6, a7, a8⟩ := f
  obtain ⟨b1, b2, b3, b4, b5, b6, b7, b8⟩ := g
  obtain rfl := BitVec.eq_of_toNat_eq h1
  obtain rfl := BitVec.eq_of_toNat_eq h2
  obtain rfl := BitVec.eq_of_toNat_eq h3
  obtain rfl := bool_eq_of_toNat h4
  obtain rfl := bool_eq_of_toNat h5
  obtain rfl := BitVec.eq_of_toNat_eq h6
  obtain rfl := BitVec.eq_of_toNat_eq h7
  obtain rfl := BitVec.eq_of_toNat_eq h8
  rfl

/-- The fields laid out come back. -/
theorem unpackFields_packFields (f : Fields) : unpackFields (packFields f) = f := by
  obtain ⟨h1, h2, h3, h4, h5, h6, h7, h8⟩ := unpackFields_toNat (packFields f)
  have b1 := f.opc.isLt
  have b2 := f.cpu.isLt
  have b3 := f.sel.isLt
  have b4 := f.p.toNat_lt
  have b5 := f.m.toNat_lt
  have b6 := f.cci.isLt
  have b7 := f.r1.isLt
  have b8 := f.r3.isLt
  apply Fields.eq_of_toNat <;> first
    | rw [h1] | rw [h2] | rw [h3] | rw [h4] | rw [h5] | rw [h6] | rw [h7] | rw [h8]
  all_goals
    clear h1 h2 h3 h4 h5 h6 h7 h8
    rw [packFields_toNat]
    omega

/-- A word cut into its fields comes back. -/
theorem packFields_unpackFields (w : CmdWord) : packFields (unpackFields w) = w := by
  apply BitVec.eq_of_toNat_eq
  obtain ⟨h1, h2, h3, h4, h5, h6, h7, h8⟩ := unpackFields_toNat w
  rw [packFields_toNat, h1, h2, h3, h4, h5, h6, h7, h8]
  omega

/-- A command word put together from numbers, as fields. -/
theorem commandWord_eq_packFields (f : Fields) :
    commandWord f.opc.toNat f.sel.toNat f.p f.cpu.toNat f.m f.cci.toNat f.r1.toNat f.r3.toNat =
      packFields f := by
  apply BitVec.eq_of_toNat_eq
  rw [packFields_toNat, commandWord, BitVec.toNat_ofNat]
  have := f.opc.isLt; have := f.cpu.isLt; have := f.sel.isLt; have := f.p.toNat_lt; have := f.m.toNat_lt
  have := f.cci.isLt; have := f.r1.isLt; have := f.r3.isLt
  omega

end Sys2Proof
end

