-- ==== Sys2Proof/Laws/Memory.lean ====
section
/-! SUPPORT. The laws of the sparse stores, of memory and of the key flags: read after write, what a write
leaves alone, and that every operation keeps the canonical form. -/

namespace Sys2Proof.Machine

variable {α : Type} [DecidableEq α]

/-! ### Sparse stores -/

theorem sparseWf_tail {u : α} {n : Nat} {e : Nat × α} {m : List (Nat × α)}
    (h : sparseWf u n (e :: m) = true) : sparseWf u n m = true := by
  cases m with
  | nil => rfl
  | cons f rest => simp [sparseWf] at h; exact h.2

theorem sparseWf_head_ne {u : α} {n : Nat} {e : Nat × α} {m : List (Nat × α)}
    (h : sparseWf u n (e :: m) = true) : e.2 ≠ u := by
  cases m with
  | nil => simp [sparseWf] at h; exact h.2
  | cons f rest => simp [sparseWf] at h; exact h.1.2

theorem sparseWf_head_lt {u : α} {n : Nat} {e : Nat × α} {m : List (Nat × α)}
    (h : sparseWf u n (e :: m) = true) : e.1 < n := by
  induction m generalizing e with
  | nil => simp [sparseWf] at h; exact h.1
  | cons f rest ih =>
    have hf := ih (sparseWf_tail h)
    simp [sparseWf] at h
    omega

/-- A key before the first one of a canonical store is unlisted. -/
theorem sparseGet_before {u : α} {n a : Nat} {e : Nat × α} {m : List (Nat × α)}
    (h : sparseWf u n (e :: m) = true) (ha : a < e.1) : sparseGet u (e :: m) a = u := by
  induction m generalizing e with
  | nil => simp [sparseGet]; intro hea; omega
  | cons f rest ih =>
    have hne : e.1 ≠ a := by omega
    have hlt : e.1 < f.1 := by simp [sparseWf] at h; exact h.1.1
    rw [sparseGet, if_neg hne]
    exact ih (sparseWf_tail h) (by omega)

/-- The same of a store one element shorter: its own first key is not listed again. -/
theorem sparseGet_tail {u : α} {n a : Nat} {e : Nat × α} {m : List (Nat × α)}
    (h : sparseWf u n (e :: m) = true) (ha : a ≤ e.1) : sparseGet u m a = u := by
  cases m with
  | nil => rfl
  | cons f rest =>
    have hlt : e.1 < f.1 := by simp [sparseWf] at h; exact h.1.1
    exact sparseGet_before (sparseWf_tail h) (by omega)

/-- A canonical store with a smaller key put before it is canonical. -/
theorem sparseWf_cons {u : α} {n : Nat} {e : Nat × α} {m : List (Nat × α)}
    (hn : e.1 < n) (hu : e.2 ≠ u) (hm : sparseWf u n m = true)
    (hlt : ∀ f ∈ m.head?, e.1 < f.1) : sparseWf u n (e :: m) = true := by
  cases m with
  | nil => simp [sparseWf, hn, hu]
  | cons f rest => simpa [sparseWf, hu, hm] using hlt f (by simp)

theorem sparseGet_sparseSet_ne {u : α} (m : List (Nat × α)) {a c : Nat} (v : α) (h : c ≠ a) :
    sparseGet u (sparseSet u m a v) c = sparseGet u m c := by
  induction m with
  | nil => simp only [sparseSet]; split <;> simp [sparseGet, Ne.symm h]
  | cons e rest ih =>
    obtain ⟨k, x⟩ := e
    simp only [sparseSet]
    by_cases hlt : a < k
    · rw [if_pos hlt]; split <;> simp [sparseGet, Ne.symm h]
    · rw [if_neg hlt]
      by_cases heq : a = k
      · subst heq; rw [if_pos rfl]; split <;> simp [sparseGet, Ne.symm h]
      · rw [if_neg heq, sparseGet, sparseGet]; split
        · rfl
        · exact ih

/-- A listed value reads back from any store. -/
theorem sparseGet_sparseSet_listed {u : α} (m : List (Nat × α)) (a : Nat) {v : α} (h : v ≠ u) :
    sparseGet u (sparseSet u m a v) a = v := by
  induction m with
  | nil => simp [sparseSet, h, sparseGet]
  | cons e rest ih =>
    obtain ⟨k, x⟩ := e
    simp only [sparseSet]
    by_cases hlt : a < k
    · simp [hlt, h, sparseGet]
    · by_cases heq : a = k
      · simp [heq, h, sparseGet]
      · simp [hlt, heq, sparseGet, Ne.symm heq, ih]

/-- Any value reads back from a canonical store. -/
theorem sparseGet_sparseSet_self {u : α} {n : Nat} {m : List (Nat × α)} (a : Nat) (v : α)
    (h : sparseWf u n m = true) : sparseGet u (sparseSet u m a v) a = v := by
  by_cases hv : v = u
  swap
  · exact sparseGet_sparseSet_listed m a hv
  subst hv
  induction m with
  | nil => simp [sparseSet, sparseGet]
  | cons e rest ih =>
    obtain ⟨k, x⟩ := e
    simp only [sparseSet, if_true]
    by_cases hlt : a < k
    · rw [if_pos hlt]; exact sparseGet_before h hlt
    · rw [if_neg hlt]
      by_cases heq : a = k
      · rw [if_pos heq]; exact sparseGet_tail h (by simp [heq])
      · rw [if_neg heq, sparseGet, if_neg (Ne.symm heq)]; exact ih (sparseWf_tail h)

/-- The first key of a store after a write is the key written or the first key before. -/
theorem sparseSet_head {u : α} {n : Nat} {m : List (Nat × α)} {k a : Nat} (v : α)
    (h : ∀ f ∈ m.head?, k < f.1) (hm : sparseWf u n m = true) (ha : k < a) :
    ∀ f ∈ (sparseSet u m a v).head?, k < f.1 := by
  cases m with
  | nil => simp only [sparseSet]; split <;> simp [ha]
  | cons e rest =>
    obtain ⟨b, x⟩ := e
    have hb : k < b := h (b, x) (by simp)
    simp only [sparseSet]
    by_cases hlt : a < b
    · rw [if_pos hlt]; split <;> simp [ha, hb]
    · rw [if_neg hlt]
      by_cases heq : a = b
      · rw [if_pos heq]; split
        · intro f hf
          cases rest with
          | nil => simp at hf
          | cons g r =>
            have hlt : b < g.1 := by simp [sparseWf] at hm; exact hm.1.1
            simp at hf; subst hf; omega
        · simp [ha]
      · rw [if_neg heq]; simp [hb]

/-- A write keeps the canonical form. -/
theorem sparseWf_sparseSet {u : α} {n : Nat} {m : List (Nat × α)} {a : Nat} (v : α)
    (h : sparseWf u n m = true) (ha : a < n) : sparseWf u n (sparseSet u m a v) = true := by
  induction m with
  | nil =>
    simp only [sparseSet]; split
    · rfl
    · rename_i hv; exact sparseWf_cons ha hv rfl (by simp)
  | cons e rest ih =>
    obtain ⟨k, x⟩ := e
    simp only [sparseSet]
    by_cases hlt : a < k
    · rw [if_pos hlt]; split
      · exact h
      · rename_i hv; exact sparseWf_cons ha hv h (by simpa using hlt)
    · rw [if_neg hlt]
      have hrest : ∀ f ∈ rest.head?, k < f.1 := by
        intro f hf
        cases rest with
        | nil => simp at hf
        | cons g r => simp at hf; subst hf; simp [sparseWf] at h; exact h.1.1
      by_cases heq : a = k
      · rw [if_pos heq]; split
        · exact sparseWf_tail h
        · rename_i hv; exact sparseWf_cons ha hv (sparseWf_tail h) (by simpa [heq] using hrest)
      · rw [if_neg heq]
        exact sparseWf_cons (sparseWf_head_lt h) (sparseWf_head_ne h) (ih (sparseWf_tail h))
          (sparseSet_head v hrest (sparseWf_tail h) (by simp; omega))

/-! ### Bytes of memory -/

theorem memByte_memSetByte_self {m : Memory} (a : Word) (v : Byte) (h : Memory.wf m = true) :
    memByte (memSetByte m a v) a = v :=
  sparseGet_sparseSet_self _ v h

theorem memByte_memSetByte_ne (m : Memory) {a b : Word} (v : Byte) (h : b ≠ a) :
    memByte (memSetByte m a v) b = memByte m b :=
  sparseGet_sparseSet_ne m v (fun he => h (BitVec.eq_of_toNat_eq he))

theorem memSetByte_wf {m : Memory} (a : Word) (v : Byte) (h : Memory.wf m = true) :
    Memory.wf (memSetByte m a v) = true :=
  sparseWf_sparseSet v h a.isLt

theorem memWrite_wf {m : Memory} (a : Word) (n : Nat) (v : Wide) (h : Memory.wf m = true) :
    Memory.wf (memWrite m a n v) = true := by
  induction n generalizing v with
  | zero => exact h
  | succ n ih => exact memSetByte_wf _ _ (ih _)

/-- A write leaves every byte outside its range alone. -/
theorem memByte_memWrite_outside (m : Memory) (a : Word) (n : Nat) (v : Wide) {b : Word}
    (h : ∀ j < n, b ≠ a + BitVec.ofNat 64 j) : memByte (memWrite m a n v) b = memByte m b := by
  induction n generalizing v with
  | zero => rfl
  | succ n ih =>
    rw [memWrite, memByte_memSetByte_ne _ _ (h n (Nat.lt_succ_self n))]
    exact ih _ fun j hj => h j (Nat.lt_succ_of_lt hj)

/-- A one-byte write reads back. -/
theorem memByte_memWrite_one {m : Memory} (a : Word) (v : Wide) (h : Memory.wf m = true) :
    memByte (memWrite m a 1 v) a = v.setWidth 8 := by
  simpa [memWrite] using memByte_memSetByte_self a (v.setWidth 8) h

/-! ### Key flags -/

theorem frameOf_lt (c : Config) (a : Word) (hk : c.keyShift ≤ 64) : frameOf c a < 2 ^ (64 - c.keyShift) := by
  simp only [frameOf, BitVec.toNat_ushiftRight, Nat.shiftRight_eq_div_pow]
  rw [Nat.div_lt_iff_lt_mul (Nat.two_pow_pos _), ← Nat.pow_add]
  simpa [Nat.sub_add_cancel hk] using a.isLt

theorem keyFlags_setRC_self (s : State) (a : Word) :
    (s.setRC a).keyFlags (frameOf s.cfg a) = ⟨true, true⟩ :=
  sparseGet_sparseSet_listed _ _ (by decide)

theorem keyFlags_setRC_ne (s : State) (a : Word) {f : Nat} (h : f ≠ frameOf s.cfg a) :
    (s.setRC a).keyFlags f = s.keyFlags f :=
  sparseGet_sparseSet_ne _ _ h

theorem keyFlags_setRef_self (s : State) (a : Word) :
    (s.setRef a).keyFlags (frameOf s.cfg a) = ⟨true, (s.keyFlags (frameOf s.cfg a)).c⟩ :=
  sparseGet_sparseSet_listed _ _ (by simp [KeyStore.unlisted])

theorem keyFlags_setRef_ne (s : State) (a : Word) {f : Nat} (h : f ≠ frameOf s.cfg a) :
    (s.setRef a).keyFlags f = s.keyFlags f :=
  sparseGet_sparseSet_ne _ _ h

theorem setRC_keyRc_wf (s : State) (a : Word) (hk : s.cfg.keyShift ≤ 64)
    (h : KeyStore.wf s.cfg.keyShift s.keyRc = true) :
    KeyStore.wf s.cfg.keyShift (s.setRC a).keyRc = true :=
  sparseWf_sparseSet _ h (frameOf_lt s.cfg a hk)

theorem setRef_keyRc_wf (s : State) (a : Word) (hk : s.cfg.keyShift ≤ 64)
    (h : KeyStore.wf s.cfg.keyShift s.keyRc = true) :
    KeyStore.wf s.cfg.keyShift (s.setRef a).keyRc = true :=
  sparseWf_sparseSet _ h (frameOf_lt s.cfg a hk)

/-- The stores after reset have the canonical form. -/
theorem resetAt_stores_wf (c : Config) (h : HostSample) :
    Memory.wf (State.resetAt c h).mem = true ∧ KeyStore.wf c.keyShift (State.resetAt c h).keyRc = true :=
  ⟨by rfl, by rfl⟩

theorem reset_mem_wf : Memory.wf State.reset.mem = true := by rfl

end Sys2Proof.Machine
end

