-- ==== Sys2Proof/Laws/Numbers.lean ====
section
/-! SUPPORT. The clock and timer functions of the model as the exact integer formulas of the rules. -/

namespace Sys2Proof.Machine

/-! ### Words and numbers -/

theorem etodHigh_toNat (e : Wide) : (etodHigh e).toNat = e.toNat / 2 ^ 64 := by
  simp only [etodHigh, BitVec.extractLsb'_toNat, Nat.shiftRight_eq_div_pow]
  have := e.isLt
  omega

theorem etodLow_toNat (e : Wide) : (etodLow e).toNat = e.toNat % 2 ^ 64 := by
  simp [etodLow, BitVec.extractLsb'_toNat]

theorem mkEtod_toNat (h l : Word) : (mkEtod h l).toNat = h.toNat * 2 ^ 64 + l.toNat := by
  have := l.isLt
  rw [mkEtod, BitVec.toNat_append, ← Nat.shiftLeft_add_eq_or_of_lt this, Nat.shiftLeft_eq]

/-- A signed 64-bit reading of an integer is its balanced remainder. -/
theorem toInt_ofInt_bmod (v : Int) : (BitVec.ofInt 64 v).toInt = v.bmod (2 ^ 64) := by
  simp [BitVec.toInt_ofInt]

theorem toInt_sub_bmod (a b : Word) : (a - b).toInt = ((a.toNat : Int) - b.toNat).bmod (2 ^ 64) := by
  rw [BitVec.toInt_sub, BitVec.toInt_eq_toNat_bmod, BitVec.toInt_eq_toNat_bmod]
  simp

/-- A word is the integer it is congruent to. -/
theorem word_eq_ofInt (a : Word) (v : Int) (h : (a.toNat : Int) = v % 2 ^ 64) : a = BitVec.ofInt 64 v := by
  apply BitVec.eq_of_toNat_eq
  rw [BitVec.toNat_ofInt]
  omega

/-! ### Host time -/

theorem hostTime_lt (c : Config) (sec nsec : Nat) (fail : Bool) : hostTime c sec nsec fail < 2 ^ 128 := by
  unfold hostTime; omega

theorem hostToEtod_eq (c : Config) (sec : Word) (nsec : BitVec 32) (fail : Bool) :
    hostToEtod c sec nsec fail = BitVec.ofNat 128 (hostTime c sec.toNat nsec.toNat fail) := by
  apply BitVec.eq_of_toNat_eq
  rw [BitVec.toNat_ofNat, Nat.mod_eq_of_lt (hostTime_lt _ _ _ _), hostToEtod, BitVec.toNat_ofInt]
  rfl

theorem sampleToEtod_toNat (c : Config) (h : HostSample) :
    (sampleToEtod c h).toNat = hostTime c h.sec.toNat h.nsec.toNat h.fail := by
  rw [sampleToEtod, hostToEtod_eq, BitVec.toNat_ofNat, Nat.mod_eq_of_lt (hostTime_lt _ _ _ _)]

theorem hostEtod_toNat (s : State) : s.hostEtod.toNat = s.hostNow := sampleToEtod_toNat _ _

theorem hostEtod_eq (s : State) : s.hostEtod = BitVec.ofNat 128 s.hostNow := by
  apply BitVec.eq_of_toNat_eq
  rw [hostEtod_toNat, BitVec.toNat_ofNat]
  exact (Nat.mod_eq_of_lt (hostTime_lt _ _ _ _)).symm

theorem hostHigh_toNat (s : State) : (etodHigh s.hostEtod).toNat = s.hostNow / 2 ^ 64 := by
  rw [etodHigh_toNat, hostEtod_toNat]

theorem hostLow_toNat (s : State) : (etodLow s.hostEtod).toNat = s.hostNow % 2 ^ 64 := by
  rw [etodLow_toNat, hostEtod_toNat]

/-! ### Steering -/

theorem steer_toNat (c : Config) (x : Csr) (u : Word) :
    ((steer c x u).toNat : Int) =
      (((u.toNat + x.baseOffset.toNat) % 2 ^ 64 : Nat) +
        elapsedAt x u.toNat * (x.fineRate.toInt + x.grossRate.toInt) / 2 ^ c.rateFracBits) % 2 ^ 64 := by
  simp only [steer, BitVec.toNat_add, wordOfInt, BitVec.toNat_ofInt, steerAdjust, totalRate]
  rw [toInt_sub_bmod, BitVec.toNat_add]
  simp only [elapsedAt]
  push_cast
  omega

theorem steeredAt_lt (c : Config) (x : Csr) (u : Nat) : steeredAt c x u < 2 ^ 64 := by
  unfold steeredAt; omega

theorem steer_eq (c : Config) (x : Csr) (u : Word) : (steer c x u).toNat = steeredAt c x u.toNat := by
  have := steer_toNat c x u
  unfold steeredAt
  omega

theorem now_toNat (s : State) : s.now.toNat = s.steeredNow := by
  rw [State.now, State.fetched, State.steeredNow, ← hostHigh_toNat, ← steer_eq]
  rw [etodHigh_toNat, mkEtod_toNat]
  have := (etodLow s.hostEtod).isLt
  omega

theorem fetched_eq (s : State) : s.fetched = s.fetchedNow := by
  apply BitVec.eq_of_toNat_eq
  rw [State.fetched, mkEtod_toNat, State.fetchedNow, BitVec.toNat_ofNat, State.steeredNow, hostLow_toNat,
    steer_eq, hostHigh_toNat]
  have := steeredAt_lt s.cfg s.csr (s.hostNow / 2 ^ 64)
  omega

/-! ### Timers -/

theorem cptVal_toNat (shift : Nat) (now : Word) (c : Cpu) :
    (cptVal shift now c).toNat = timerReading shift c.cptBase now.toNat := by
  simp only [cptVal, timerReading, BitVec.toNat_shiftLeft, Nat.shiftLeft_eq, BitVec.toNat_sub]
  have h : ((2 ^ 64 - now.toNat + c.cptBase.toNat) % 2 ^ 64 : Nat) =
      (((c.cptBase.toNat : Int) - now.toNat) % 2 ^ 64).toNat := by
    have := now.isLt
    omega
  rw [h]
  have h0 : 0 ≤ ((c.cptBase.toNat : Int) - now.toNat) % 2 ^ 64 := Int.emod_nonneg _ (by decide)
  generalize ((c.cptBase.toNat : Int) - now.toNat) % 2 ^ 64 = d at h0 ⊢
  obtain ⟨k, rfl⟩ := Int.eq_ofNat_of_zero_le h0
  rw [Int.toNat_natCast]
  norm_cast

theorem cptVal_msb (shift : Nat) (now : Word) (c : Cpu) :
    (cptVal shift now c).msb = decide (2 ^ 63 ≤ timerReading shift c.cptBase now.toNat) := by
  rw [BitVec.msb_eq_decide, cptVal_toNat]

/-- The latch's sample is the rule's. -/
theorem cptSample_eq (shift : Nat) (now : Word) (c : Cpu) :
    cptSample shift now c = timerSampled shift now.toNat c := by
  unfold cptSample timerSampled
  rw [cptVal_msb]
  by_cases h : 2 ^ 63 ≤ timerReading shift c.cptBase now.toNat
  · rw [if_neg (Nat.not_lt.mpr h), decide_eq_true h]; rfl
  · rw [if_pos (Nat.lt_of_not_le h), decide_eq_false h]; rfl

end Sys2Proof.Machine
end

