-- ==== Sys2Proof/Laws/State.lean ====
section
/-! SUPPORT. Each field after each named update of the state, by rfl: no later proof unfolds a record
update. They are proved `by rfl`, not `:= rfl`, so that simp uses the lemma and never asks the kernel to compare
two states whose clock values it would have to compute. -/

namespace Sys2Proof.Machine

/-! `complete` -/

@[simp] theorem complete_csr (s : State) (r : Response) : (s.complete r).csr = s.csr := by rfl
@[simp] theorem complete_todValue (s : State) (r : Response) : (s.complete r).todValue = s.todValue := by rfl
@[simp] theorem complete_cpus (s : State) (r : Response) : (s.complete r).cpus = s.cpus := by rfl
@[simp] theorem complete_glock (s : State) (r : Response) : (s.complete r).glock = s.glock := by rfl
@[simp] theorem complete_mem (s : State) (r : Response) : (s.complete r).mem = s.mem := by rfl
@[simp] theorem complete_keyRc (s : State) (r : Response) : (s.complete r).keyRc = s.keyRc := by rfl
@[simp] theorem complete_ports (s : State) (r : Response) :
    (s.complete r).ports = s.ports.modify s.active (Port.answer r) := by rfl
@[simp] theorem complete_history (s : State) (r : Response) : (s.complete r).history = s.history := by rfl
@[simp] theorem complete_cfg (s : State) (r : Response) : (s.complete r).cfg = s.cfg := by rfl
@[simp] theorem complete_active (s : State) (r : Response) : (s.complete r).active = s.active := by rfl
@[simp] theorem complete_hostQueue (s : State) (r : Response) : (s.complete r).hostQueue = s.hostQueue := by rfl
@[simp] theorem complete_verdicts (s : State) (r : Response) : (s.complete r).verdicts = s.verdicts := by rfl
@[simp] theorem complete_schedule (s : State) (r : Response) : (s.complete r).schedule = s.schedule := by rfl
@[simp] theorem complete_draws (s : State) (r : Response) : (s.complete r).draws = s.draws := by rfl

/-! `hold` -/

@[simp] theorem hold_csr (s : State) : (s.hold).csr = s.csr := by rfl
@[simp] theorem hold_todValue (s : State) : (s.hold).todValue = s.todValue := by rfl
@[simp] theorem hold_cpus (s : State) : (s.hold).cpus = s.cpus := by rfl
@[simp] theorem hold_glock (s : State) : (s.hold).glock = s.glock := by rfl
@[simp] theorem hold_mem (s : State) : (s.hold).mem = s.mem := by rfl
@[simp] theorem hold_keyRc (s : State) : (s.hold).keyRc = s.keyRc := by rfl
@[simp] theorem hold_ports (s : State) : (s.hold).ports = s.ports.modify s.active Port.wait := by rfl
@[simp] theorem hold_history (s : State) : (s.hold).history = s.history := by rfl
@[simp] theorem hold_cfg (s : State) : (s.hold).cfg = s.cfg := by rfl
@[simp] theorem hold_active (s : State) : (s.hold).active = s.active := by rfl
@[simp] theorem hold_hostQueue (s : State) : (s.hold).hostQueue = s.hostQueue := by rfl
@[simp] theorem hold_verdicts (s : State) : (s.hold).verdicts = s.verdicts := by rfl
@[simp] theorem hold_schedule (s : State) : (s.hold).schedule = s.schedule := by rfl
@[simp] theorem hold_draws (s : State) : (s.hold).draws = s.draws := by rfl

/-! `takeInterrupt` -/

@[simp] theorem takeInterrupt_csr (s : State) (c : PgmCode) (k : Response) :
    (s.takeInterrupt c k).csr = s.csr := by rfl
@[simp] theorem takeInterrupt_todValue (s : State) (c : PgmCode) (k : Response) :
    (s.takeInterrupt c k).todValue = s.todValue := by rfl
@[simp] theorem takeInterrupt_cpus (s : State) (c : PgmCode) (k : Response) :
    (s.takeInterrupt c k).cpus = s.cpus := by rfl
@[simp] theorem takeInterrupt_glock (s : State) (c : PgmCode) (k : Response) :
    (s.takeInterrupt c k).glock = s.glock := by rfl
@[simp] theorem takeInterrupt_mem (s : State) (c : PgmCode) (k : Response) :
    (s.takeInterrupt c k).mem = s.mem := by rfl
@[simp] theorem takeInterrupt_keyRc (s : State) (c : PgmCode) (k : Response) :
    (s.takeInterrupt c k).keyRc = s.keyRc := by rfl
@[simp] theorem takeInterrupt_ports (s : State) (c : PgmCode) (k : Response) :
    (s.takeInterrupt c k).ports = s.ports.modify s.active (Port.answer (Response.interrupt c k)) := by rfl
@[simp] theorem takeInterrupt_history (s : State) (c : PgmCode) (k : Response) :
    (s.takeInterrupt c k).history = s.history := by rfl
@[simp] theorem takeInterrupt_cfg (s : State) (c : PgmCode) (k : Response) :
    (s.takeInterrupt c k).cfg = s.cfg := by rfl
@[simp] theorem takeInterrupt_active (s : State) (c : PgmCode) (k : Response) :
    (s.takeInterrupt c k).active = s.active := by rfl
@[simp] theorem takeInterrupt_hostQueue (s : State) (c : PgmCode) (k : Response) :
    (s.takeInterrupt c k).hostQueue = s.hostQueue := by rfl
@[simp] theorem takeInterrupt_verdicts (s : State) (c : PgmCode) (k : Response) :
    (s.takeInterrupt c k).verdicts = s.verdicts := by rfl
@[simp] theorem takeInterrupt_schedule (s : State) (c : PgmCode) (k : Response) :
    (s.takeInterrupt c k).schedule = s.schedule := by rfl
@[simp] theorem takeInterrupt_draws (s : State) (c : PgmCode) (k : Response) :
    (s.takeInterrupt c k).draws = s.draws := by rfl

/-! `raisePgm` -/

@[simp] theorem raisePgm_csr (s : State) (c : PgmCode) : (s.raisePgm c).csr = s.csr := by rfl
@[simp] theorem raisePgm_todValue (s : State) (c : PgmCode) : (s.raisePgm c).todValue = s.todValue := by rfl
@[simp] theorem raisePgm_cpus (s : State) (c : PgmCode) : (s.raisePgm c).cpus = s.cpus := by rfl
@[simp] theorem raisePgm_glock (s : State) (c : PgmCode) : (s.raisePgm c).glock = s.glock := by rfl
@[simp] theorem raisePgm_mem (s : State) (c : PgmCode) : (s.raisePgm c).mem = s.mem := by rfl
@[simp] theorem raisePgm_keyRc (s : State) (c : PgmCode) : (s.raisePgm c).keyRc = s.keyRc := by rfl
@[simp] theorem raisePgm_ports (s : State) (c : PgmCode) :
    (s.raisePgm c).ports = s.ports.modify s.active (Port.answer (Response.interrupt c Response.ok)) := by rfl
@[simp] theorem raisePgm_history (s : State) (c : PgmCode) : (s.raisePgm c).history = s.history := by rfl
@[simp] theorem raisePgm_cfg (s : State) (c : PgmCode) : (s.raisePgm c).cfg = s.cfg := by rfl
@[simp] theorem raisePgm_active (s : State) (c : PgmCode) : (s.raisePgm c).active = s.active := by rfl
@[simp] theorem raisePgm_hostQueue (s : State) (c : PgmCode) : (s.raisePgm c).hostQueue = s.hostQueue := by rfl
@[simp] theorem raisePgm_verdicts (s : State) (c : PgmCode) : (s.raisePgm c).verdicts = s.verdicts := by rfl
@[simp] theorem raisePgm_schedule (s : State) (c : PgmCode) : (s.raisePgm c).schedule = s.schedule := by rfl
@[simp] theorem raisePgm_draws (s : State) (c : PgmCode) : (s.raisePgm c).draws = s.draws := by rfl

/-! `record` -/

@[simp] theorem record_csr (s : State) (e : Event) : (s.record e).csr = s.csr := by rfl
@[simp] theorem record_todValue (s : State) (e : Event) : (s.record e).todValue = s.todValue := by rfl
@[simp] theorem record_cpus (s : State) (e : Event) : (s.record e).cpus = s.cpus := by rfl
@[simp] theorem record_glock (s : State) (e : Event) : (s.record e).glock = s.glock := by rfl
@[simp] theorem record_mem (s : State) (e : Event) : (s.record e).mem = s.mem := by rfl
@[simp] theorem record_keyRc (s : State) (e : Event) : (s.record e).keyRc = s.keyRc := by rfl
@[simp] theorem record_ports (s : State) (e : Event) : (s.record e).ports = s.ports := by rfl
@[simp] theorem record_history (s : State) (e : Event) : (s.record e).history = e :: s.history := by rfl
@[simp] theorem record_cfg (s : State) (e : Event) : (s.record e).cfg = s.cfg := by rfl
@[simp] theorem record_active (s : State) (e : Event) : (s.record e).active = s.active := by rfl
@[simp] theorem record_hostQueue (s : State) (e : Event) : (s.record e).hostQueue = s.hostQueue := by rfl
@[simp] theorem record_verdicts (s : State) (e : Event) : (s.record e).verdicts = s.verdicts := by rfl
@[simp] theorem record_schedule (s : State) (e : Event) : (s.record e).schedule = s.schedule := by rfl
@[simp] theorem record_draws (s : State) (e : Event) : (s.record e).draws = s.draws := by rfl

/-! `serialize` -/

@[simp] theorem serialize_csr (s : State) : (s.serialize).csr = s.csr := by rfl
@[simp] theorem serialize_todValue (s : State) : (s.serialize).todValue = s.todValue := by rfl
@[simp] theorem serialize_cpus (s : State) : (s.serialize).cpus = s.cpus := by rfl
@[simp] theorem serialize_glock (s : State) : (s.serialize).glock = s.glock := by rfl
@[simp] theorem serialize_mem (s : State) : (s.serialize).mem = s.mem := by rfl
@[simp] theorem serialize_keyRc (s : State) : (s.serialize).keyRc = s.keyRc := by rfl
@[simp] theorem serialize_ports (s : State) : (s.serialize).ports = s.ports := by rfl
@[simp] theorem serialize_history (s : State) : (s.serialize).history = .ser s.active :: s.history := by rfl
@[simp] theorem serialize_cfg (s : State) : (s.serialize).cfg = s.cfg := by rfl
@[simp] theorem serialize_active (s : State) : (s.serialize).active = s.active := by rfl
@[simp] theorem serialize_hostQueue (s : State) : (s.serialize).hostQueue = s.hostQueue := by rfl
@[simp] theorem serialize_verdicts (s : State) : (s.serialize).verdicts = s.verdicts := by rfl
@[simp] theorem serialize_schedule (s : State) : (s.serialize).schedule = s.schedule := by rfl
@[simp] theorem serialize_draws (s : State) : (s.serialize).draws = s.draws := by rfl

/-! `storeRmw` -/

@[simp] theorem storeRmw_csr (s : State) (a : Word) (n : Nat) (v w : Wide) :
    (s.storeRmw a n v w).csr = s.csr := by rfl
@[simp] theorem storeRmw_todValue (s : State) (a : Word) (n : Nat) (v w : Wide) :
    (s.storeRmw a n v w).todValue = s.todValue := by rfl
@[simp] theorem storeRmw_cpus (s : State) (a : Word) (n : Nat) (v w : Wide) :
    (s.storeRmw a n v w).cpus = s.cpus := by rfl
@[simp] theorem storeRmw_glock (s : State) (a : Word) (n : Nat) (v w : Wide) :
    (s.storeRmw a n v w).glock = s.glock := by rfl
@[simp] theorem storeRmw_mem (s : State) (a : Word) (n : Nat) (v w : Wide) :
    (s.storeRmw a n v w).mem = memWrite s.mem a n w := by rfl
@[simp] theorem storeRmw_keyRc (s : State) (a : Word) (n : Nat) (v w : Wide) :
    (s.storeRmw a n v w).keyRc = s.keyRc := by rfl
@[simp] theorem storeRmw_ports (s : State) (a : Word) (n : Nat) (v w : Wide) :
    (s.storeRmw a n v w).ports = s.ports := by rfl
@[simp] theorem storeRmw_history (s : State) (a : Word) (n : Nat) (v w : Wide) :
    (s.storeRmw a n v w).history = .rmw s.active a n v w true :: s.history := by rfl
@[simp] theorem storeRmw_cfg (s : State) (a : Word) (n : Nat) (v w : Wide) :
    (s.storeRmw a n v w).cfg = s.cfg := by rfl
@[simp] theorem storeRmw_active (s : State) (a : Word) (n : Nat) (v w : Wide) :
    (s.storeRmw a n v w).active = s.active := by rfl
@[simp] theorem storeRmw_hostQueue (s : State) (a : Word) (n : Nat) (v w : Wide) :
    (s.storeRmw a n v w).hostQueue = s.hostQueue := by rfl
@[simp] theorem storeRmw_verdicts (s : State) (a : Word) (n : Nat) (v w : Wide) :
    (s.storeRmw a n v w).verdicts = s.verdicts := by rfl
@[simp] theorem storeRmw_schedule (s : State) (a : Word) (n : Nat) (v w : Wide) :
    (s.storeRmw a n v w).schedule = s.schedule := by rfl
@[simp] theorem storeRmw_draws (s : State) (a : Word) (n : Nat) (v w : Wide) :
    (s.storeRmw a n v w).draws = s.draws := by rfl

/-! `readRmw` -/

@[simp] theorem readRmw_csr (s : State) (a : Word) (n : Nat) (v : Wide) : (s.readRmw a n v).csr = s.csr := by rfl
@[simp] theorem readRmw_todValue (s : State) (a : Word) (n : Nat) (v : Wide) :
    (s.readRmw a n v).todValue = s.todValue := by rfl
@[simp] theorem readRmw_cpus (s : State) (a : Word) (n : Nat) (v : Wide) :
    (s.readRmw a n v).cpus = s.cpus := by rfl
@[simp] theorem readRmw_glock (s : State) (a : Word) (n : Nat) (v : Wide) :
    (s.readRmw a n v).glock = s.glock := by rfl
@[simp] theorem readRmw_mem (s : State) (a : Word) (n : Nat) (v : Wide) : (s.readRmw a n v).mem = s.mem := by rfl
@[simp] theorem readRmw_keyRc (s : State) (a : Word) (n : Nat) (v : Wide) :
    (s.readRmw a n v).keyRc = s.keyRc := by rfl
@[simp] theorem readRmw_ports (s : State) (a : Word) (n : Nat) (v : Wide) :
    (s.readRmw a n v).ports = s.ports := by rfl
@[simp] theorem readRmw_history (s : State) (a : Word) (n : Nat) (v : Wide) :
    (s.readRmw a n v).history = .rmw s.active a n v v false :: s.history := by rfl
@[simp] theorem readRmw_cfg (s : State) (a : Word) (n : Nat) (v : Wide) : (s.readRmw a n v).cfg = s.cfg := by rfl
@[simp] theorem readRmw_active (s : State) (a : Word) (n : Nat) (v : Wide) :
    (s.readRmw a n v).active = s.active := by rfl
@[simp] theorem readRmw_hostQueue (s : State) (a : Word) (n : Nat) (v : Wide) :
    (s.readRmw a n v).hostQueue = s.hostQueue := by rfl
@[simp] theorem readRmw_verdicts (s : State) (a : Word) (n : Nat) (v : Wide) :
    (s.readRmw a n v).verdicts = s.verdicts := by rfl
@[simp] theorem readRmw_schedule (s : State) (a : Word) (n : Nat) (v : Wide) :
    (s.readRmw a n v).schedule = s.schedule := by rfl
@[simp] theorem readRmw_draws (s : State) (a : Word) (n : Nat) (v : Wide) :
    (s.readRmw a n v).draws = s.draws := by rfl

/-! `setRC` -/

@[simp] theorem setRC_csr (s : State) (a : Word) : (s.setRC a).csr = s.csr := by rfl
@[simp] theorem setRC_todValue (s : State) (a : Word) : (s.setRC a).todValue = s.todValue := by rfl
@[simp] theorem setRC_cpus (s : State) (a : Word) : (s.setRC a).cpus = s.cpus := by rfl
@[simp] theorem setRC_glock (s : State) (a : Word) : (s.setRC a).glock = s.glock := by rfl
@[simp] theorem setRC_mem (s : State) (a : Word) : (s.setRC a).mem = s.mem := by rfl
@[simp] theorem setRC_keyRc (s : State) (a : Word) :
    (s.setRC a).keyRc = sparseSet KeyStore.unlisted s.keyRc (frameOf s.cfg a) ⟨true, true⟩ := by rfl
@[simp] theorem setRC_ports (s : State) (a : Word) : (s.setRC a).ports = s.ports := by rfl
@[simp] theorem setRC_history (s : State) (a : Word) : (s.setRC a).history = s.history := by rfl
@[simp] theorem setRC_cfg (s : State) (a : Word) : (s.setRC a).cfg = s.cfg := by rfl
@[simp] theorem setRC_active (s : State) (a : Word) : (s.setRC a).active = s.active := by rfl
@[simp] theorem setRC_hostQueue (s : State) (a : Word) : (s.setRC a).hostQueue = s.hostQueue := by rfl
@[simp] theorem setRC_verdicts (s : State) (a : Word) : (s.setRC a).verdicts = s.verdicts := by rfl
@[simp] theorem setRC_schedule (s : State) (a : Word) : (s.setRC a).schedule = s.schedule := by rfl
@[simp] theorem setRC_draws (s : State) (a : Word) : (s.setRC a).draws = s.draws := by rfl

/-! `setRef` -/

@[simp] theorem setRef_csr (s : State) (a : Word) : (s.setRef a).csr = s.csr := by rfl
@[simp] theorem setRef_todValue (s : State) (a : Word) : (s.setRef a).todValue = s.todValue := by rfl
@[simp] theorem setRef_cpus (s : State) (a : Word) : (s.setRef a).cpus = s.cpus := by rfl
@[simp] theorem setRef_glock (s : State) (a : Word) : (s.setRef a).glock = s.glock := by rfl
@[simp] theorem setRef_mem (s : State) (a : Word) : (s.setRef a).mem = s.mem := by rfl
@[simp] theorem setRef_keyRc (s : State) (a : Word) :
    (s.setRef a).keyRc = sparseSet KeyStore.unlisted s.keyRc (frameOf s.cfg a) ⟨true, (s.keyFlags (frameOf s.cfg a)).c⟩ := by rfl
@[simp] theorem setRef_ports (s : State) (a : Word) : (s.setRef a).ports = s.ports := by rfl
@[simp] theorem setRef_history (s : State) (a : Word) : (s.setRef a).history = s.history := by rfl
@[simp] theorem setRef_cfg (s : State) (a : Word) : (s.setRef a).cfg = s.cfg := by rfl
@[simp] theorem setRef_active (s : State) (a : Word) : (s.setRef a).active = s.active := by rfl
@[simp] theorem setRef_hostQueue (s : State) (a : Word) : (s.setRef a).hostQueue = s.hostQueue := by rfl
@[simp] theorem setRef_verdicts (s : State) (a : Word) : (s.setRef a).verdicts = s.verdicts := by rfl
@[simp] theorem setRef_schedule (s : State) (a : Word) : (s.setRef a).schedule = s.schedule := by rfl
@[simp] theorem setRef_draws (s : State) (a : Word) : (s.setRef a).draws = s.draws := by rfl

/-! `sampled` -/

@[simp] theorem sampled_csr (s : State) : (s.sampled).csr = s.csr := by rfl
@[simp] theorem sampled_todValue (s : State) : (s.sampled).todValue = s.todValue := by rfl
@[simp] theorem sampled_cpus (s : State) : (s.sampled).cpus = s.cpus := by rfl
@[simp] theorem sampled_glock (s : State) : (s.sampled).glock = s.glock := by rfl
@[simp] theorem sampled_mem (s : State) : (s.sampled).mem = s.mem := by rfl
@[simp] theorem sampled_keyRc (s : State) : (s.sampled).keyRc = s.keyRc := by rfl
@[simp] theorem sampled_ports (s : State) : (s.sampled).ports = s.ports := by rfl
@[simp] theorem sampled_history (s : State) : (s.sampled).history = .host s.hostSample :: s.history := by rfl
@[simp] theorem sampled_cfg (s : State) : (s.sampled).cfg = s.cfg := by rfl
@[simp] theorem sampled_active (s : State) : (s.sampled).active = s.active := by rfl
@[simp] theorem sampled_hostQueue (s : State) : (s.sampled).hostQueue = s.hostQueue.tail := by rfl
@[simp] theorem sampled_verdicts (s : State) : (s.sampled).verdicts = s.verdicts := by rfl
@[simp] theorem sampled_schedule (s : State) : (s.sampled).schedule = s.schedule := by rfl
@[simp] theorem sampled_draws (s : State) :
    (s.sampled).draws = if s.hostQueue.isEmpty then s.draws + 1 else s.draws := by rfl

/-! `asked` -/

@[simp] theorem asked_csr (s : State) : (s.asked).csr = s.csr := by rfl
@[simp] theorem asked_todValue (s : State) : (s.asked).todValue = s.todValue := by rfl
@[simp] theorem asked_cpus (s : State) : (s.asked).cpus = s.cpus := by rfl
@[simp] theorem asked_glock (s : State) : (s.asked).glock = s.glock := by rfl
@[simp] theorem asked_mem (s : State) : (s.asked).mem = s.mem := by rfl
@[simp] theorem asked_keyRc (s : State) : (s.asked).keyRc = s.keyRc := by rfl
@[simp] theorem asked_ports (s : State) : (s.asked).ports = s.ports := by rfl
@[simp] theorem asked_history (s : State) : (s.asked).history = s.history := by rfl
@[simp] theorem asked_cfg (s : State) : (s.asked).cfg = s.cfg := by rfl
@[simp] theorem asked_active (s : State) : (s.asked).active = s.active := by rfl
@[simp] theorem asked_hostQueue (s : State) : (s.asked).hostQueue = s.hostQueue := by rfl
@[simp] theorem asked_verdicts (s : State) : (s.asked).verdicts = s.verdictsLeft := by rfl
@[simp] theorem asked_schedule (s : State) : (s.asked).schedule = s.schedule := by rfl
@[simp] theorem asked_draws (s : State) :
    (s.asked).draws = if s.verdictIsFree then s.draws + 1 else s.draws := by rfl

/-! `onSlot` -/

@[simp] theorem onSlot_csr (s : State) (c : BitVec 8) (f : Cpu → Cpu) : (s.onSlot c f).csr = s.csr := by rfl
@[simp] theorem onSlot_todValue (s : State) (c : BitVec 8) (f : Cpu → Cpu) :
    (s.onSlot c f).todValue = s.todValue := by rfl
@[simp] theorem onSlot_cpus (s : State) (c : BitVec 8) (f : Cpu → Cpu) :
    (s.onSlot c f).cpus = s.cpus.modify c.toNat f := by rfl
@[simp] theorem onSlot_glock (s : State) (c : BitVec 8) (f : Cpu → Cpu) :
    (s.onSlot c f).glock = s.glock := by rfl
@[simp] theorem onSlot_mem (s : State) (c : BitVec 8) (f : Cpu → Cpu) : (s.onSlot c f).mem = s.mem := by rfl
@[simp] theorem onSlot_keyRc (s : State) (c : BitVec 8) (f : Cpu → Cpu) :
    (s.onSlot c f).keyRc = s.keyRc := by rfl
@[simp] theorem onSlot_ports (s : State) (c : BitVec 8) (f : Cpu → Cpu) :
    (s.onSlot c f).ports = s.ports := by rfl
@[simp] theorem onSlot_history (s : State) (c : BitVec 8) (f : Cpu → Cpu) :
    (s.onSlot c f).history = s.history := by rfl
@[simp] theorem onSlot_cfg (s : State) (c : BitVec 8) (f : Cpu → Cpu) : (s.onSlot c f).cfg = s.cfg := by rfl
@[simp] theorem onSlot_active (s : State) (c : BitVec 8) (f : Cpu → Cpu) :
    (s.onSlot c f).active = s.active := by rfl
@[simp] theorem onSlot_hostQueue (s : State) (c : BitVec 8) (f : Cpu → Cpu) :
    (s.onSlot c f).hostQueue = s.hostQueue := by rfl
@[simp] theorem onSlot_verdicts (s : State) (c : BitVec 8) (f : Cpu → Cpu) :
    (s.onSlot c f).verdicts = s.verdicts := by rfl
@[simp] theorem onSlot_schedule (s : State) (c : BitVec 8) (f : Cpu → Cpu) :
    (s.onSlot c f).schedule = s.schedule := by rfl
@[simp] theorem onSlot_draws (s : State) (c : BitVec 8) (f : Cpu → Cpu) :
    (s.onSlot c f).draws = s.draws := by rfl

/-! `setCsr` -/

@[simp] theorem setCsr_csr (s : State) (x : Csr) : (s.setCsr x).csr = x := by rfl
@[simp] theorem setCsr_todValue (s : State) (x : Csr) : (s.setCsr x).todValue = s.todValue := by rfl
@[simp] theorem setCsr_cpus (s : State) (x : Csr) : (s.setCsr x).cpus = s.cpus := by rfl
@[simp] theorem setCsr_glock (s : State) (x : Csr) : (s.setCsr x).glock = s.glock := by rfl
@[simp] theorem setCsr_mem (s : State) (x : Csr) : (s.setCsr x).mem = s.mem := by rfl
@[simp] theorem setCsr_keyRc (s : State) (x : Csr) : (s.setCsr x).keyRc = s.keyRc := by rfl
@[simp] theorem setCsr_ports (s : State) (x : Csr) : (s.setCsr x).ports = s.ports := by rfl
@[simp] theorem setCsr_history (s : State) (x : Csr) : (s.setCsr x).history = s.history := by rfl
@[simp] theorem setCsr_cfg (s : State) (x : Csr) : (s.setCsr x).cfg = s.cfg := by rfl
@[simp] theorem setCsr_active (s : State) (x : Csr) : (s.setCsr x).active = s.active := by rfl
@[simp] theorem setCsr_hostQueue (s : State) (x : Csr) : (s.setCsr x).hostQueue = s.hostQueue := by rfl
@[simp] theorem setCsr_verdicts (s : State) (x : Csr) : (s.setCsr x).verdicts = s.verdicts := by rfl
@[simp] theorem setCsr_schedule (s : State) (x : Csr) : (s.setCsr x).schedule = s.schedule := by rfl
@[simp] theorem setCsr_draws (s : State) (x : Csr) : (s.setCsr x).draws = s.draws := by rfl

/-! `setClockRegister` -/

@[simp] theorem setClockRegister_csr (s : State) (v : Wide) (l : List Cpu) :
    (s.setClockRegister v l).csr = s.csr := by rfl
@[simp] theorem setClockRegister_todValue (s : State) (v : Wide) (l : List Cpu) :
    (s.setClockRegister v l).todValue = v := by rfl
@[simp] theorem setClockRegister_cpus (s : State) (v : Wide) (l : List Cpu) :
    (s.setClockRegister v l).cpus = l := by rfl
@[simp] theorem setClockRegister_glock (s : State) (v : Wide) (l : List Cpu) :
    (s.setClockRegister v l).glock = s.glock := by rfl
@[simp] theorem setClockRegister_mem (s : State) (v : Wide) (l : List Cpu) :
    (s.setClockRegister v l).mem = s.mem := by rfl
@[simp] theorem setClockRegister_keyRc (s : State) (v : Wide) (l : List Cpu) :
    (s.setClockRegister v l).keyRc = s.keyRc := by rfl
@[simp] theorem setClockRegister_ports (s : State) (v : Wide) (l : List Cpu) :
    (s.setClockRegister v l).ports = s.ports := by rfl
@[simp] theorem setClockRegister_history (s : State) (v : Wide) (l : List Cpu) :
    (s.setClockRegister v l).history = s.history := by rfl
@[simp] theorem setClockRegister_cfg (s : State) (v : Wide) (l : List Cpu) :
    (s.setClockRegister v l).cfg = s.cfg := by rfl
@[simp] theorem setClockRegister_active (s : State) (v : Wide) (l : List Cpu) :
    (s.setClockRegister v l).active = s.active := by rfl
@[simp] theorem setClockRegister_hostQueue (s : State) (v : Wide) (l : List Cpu) :
    (s.setClockRegister v l).hostQueue = s.hostQueue := by rfl
@[simp] theorem setClockRegister_verdicts (s : State) (v : Wide) (l : List Cpu) :
    (s.setClockRegister v l).verdicts = s.verdicts := by rfl
@[simp] theorem setClockRegister_schedule (s : State) (v : Wide) (l : List Cpu) :
    (s.setClockRegister v l).schedule = s.schedule := by rfl
@[simp] theorem setClockRegister_draws (s : State) (v : Wide) (l : List Cpu) :
    (s.setClockRegister v l).draws = s.draws := by rfl

/-! `restartEpoch` -/

@[simp] theorem restartEpoch_csr (s : State) (t : Word) :
    (s.restartEpoch t).csr = ⟨t, t - etodHigh s.hostEtod, s.csr.fineRate, s.csr.grossRate⟩ := setCsr_csr _ _
@[simp] theorem restartEpoch_todValue (s : State) (t : Word) :
    (s.restartEpoch t).todValue = s.todValue := (setCsr_todValue _ _).trans (sampled_todValue s)
@[simp] theorem restartEpoch_cpus (s : State) (t : Word) :
    (s.restartEpoch t).cpus = s.cpus := (setCsr_cpus _ _).trans (sampled_cpus s)
@[simp] theorem restartEpoch_glock (s : State) (t : Word) :
    (s.restartEpoch t).glock = s.glock := (setCsr_glock _ _).trans (sampled_glock s)
@[simp] theorem restartEpoch_mem (s : State) (t : Word) :
    (s.restartEpoch t).mem = s.mem := (setCsr_mem _ _).trans (sampled_mem s)
@[simp] theorem restartEpoch_keyRc (s : State) (t : Word) :
    (s.restartEpoch t).keyRc = s.keyRc := (setCsr_keyRc _ _).trans (sampled_keyRc s)
@[simp] theorem restartEpoch_ports (s : State) (t : Word) :
    (s.restartEpoch t).ports = s.ports := (setCsr_ports _ _).trans (sampled_ports s)
@[simp] theorem restartEpoch_history (s : State) (t : Word) :
    (s.restartEpoch t).history = .host s.hostSample :: s.history := (setCsr_history _ _).trans (sampled_history s)
@[simp] theorem restartEpoch_cfg (s : State) (t : Word) :
    (s.restartEpoch t).cfg = s.cfg := (setCsr_cfg _ _).trans (sampled_cfg s)
@[simp] theorem restartEpoch_active (s : State) (t : Word) :
    (s.restartEpoch t).active = s.active := (setCsr_active _ _).trans (sampled_active s)
@[simp] theorem restartEpoch_hostQueue (s : State) (t : Word) :
    (s.restartEpoch t).hostQueue = s.hostQueue.tail := (setCsr_hostQueue _ _).trans (sampled_hostQueue s)
@[simp] theorem restartEpoch_verdicts (s : State) (t : Word) :
    (s.restartEpoch t).verdicts = s.verdicts := (setCsr_verdicts _ _).trans (sampled_verdicts s)
@[simp] theorem restartEpoch_schedule (s : State) (t : Word) :
    (s.restartEpoch t).schedule = s.schedule := (setCsr_schedule _ _).trans (sampled_schedule s)
@[simp] theorem restartEpoch_draws (s : State) (t : Word) :
    (s.restartEpoch t).draws = if s.hostQueue.isEmpty then s.draws + 1 else s.draws := (setCsr_draws _ _).trans (sampled_draws s)

/-! `writeFineRate` -/

@[simp] theorem writeFineRate_csr (s : State) (r : BitVec 32) :
    (s.writeFineRate r).csr = ⟨s.csr.startTime, s.csr.baseOffset, r, s.csr.grossRate⟩ := setCsr_csr _ _
@[simp] theorem writeFineRate_todValue (s : State) (r : BitVec 32) :
    (s.writeFineRate r).todValue = s.todValue := setCsr_todValue _ _
@[simp] theorem writeFineRate_cpus (s : State) (r : BitVec 32) :
    (s.writeFineRate r).cpus = s.cpus := setCsr_cpus _ _
@[simp] theorem writeFineRate_glock (s : State) (r : BitVec 32) :
    (s.writeFineRate r).glock = s.glock := setCsr_glock _ _
@[simp] theorem writeFineRate_mem (s : State) (r : BitVec 32) :
    (s.writeFineRate r).mem = s.mem := setCsr_mem _ _
@[simp] theorem writeFineRate_keyRc (s : State) (r : BitVec 32) :
    (s.writeFineRate r).keyRc = s.keyRc := setCsr_keyRc _ _
@[simp] theorem writeFineRate_ports (s : State) (r : BitVec 32) :
    (s.writeFineRate r).ports = s.ports := setCsr_ports _ _
@[simp] theorem writeFineRate_history (s : State) (r : BitVec 32) :
    (s.writeFineRate r).history = s.history := setCsr_history _ _
@[simp] theorem writeFineRate_cfg (s : State) (r : BitVec 32) :
    (s.writeFineRate r).cfg = s.cfg := setCsr_cfg _ _
@[simp] theorem writeFineRate_active (s : State) (r : BitVec 32) :
    (s.writeFineRate r).active = s.active := setCsr_active _ _
@[simp] theorem writeFineRate_hostQueue (s : State) (r : BitVec 32) :
    (s.writeFineRate r).hostQueue = s.hostQueue := setCsr_hostQueue _ _
@[simp] theorem writeFineRate_verdicts (s : State) (r : BitVec 32) :
    (s.writeFineRate r).verdicts = s.verdicts := setCsr_verdicts _ _
@[simp] theorem writeFineRate_schedule (s : State) (r : BitVec 32) :
    (s.writeFineRate r).schedule = s.schedule := setCsr_schedule _ _
@[simp] theorem writeFineRate_draws (s : State) (r : BitVec 32) :
    (s.writeFineRate r).draws = s.draws := setCsr_draws _ _

/-! `writeGrossRate` -/

@[simp] theorem writeGrossRate_csr (s : State) (r : BitVec 32) :
    (s.writeGrossRate r).csr = ⟨s.csr.startTime, s.csr.baseOffset, s.csr.fineRate, r⟩ := setCsr_csr _ _
@[simp] theorem writeGrossRate_todValue (s : State) (r : BitVec 32) :
    (s.writeGrossRate r).todValue = s.todValue := setCsr_todValue _ _
@[simp] theorem writeGrossRate_cpus (s : State) (r : BitVec 32) :
    (s.writeGrossRate r).cpus = s.cpus := setCsr_cpus _ _
@[simp] theorem writeGrossRate_glock (s : State) (r : BitVec 32) :
    (s.writeGrossRate r).glock = s.glock := setCsr_glock _ _
@[simp] theorem writeGrossRate_mem (s : State) (r : BitVec 32) :
    (s.writeGrossRate r).mem = s.mem := setCsr_mem _ _
@[simp] theorem writeGrossRate_keyRc (s : State) (r : BitVec 32) :
    (s.writeGrossRate r).keyRc = s.keyRc := setCsr_keyRc _ _
@[simp] theorem writeGrossRate_ports (s : State) (r : BitVec 32) :
    (s.writeGrossRate r).ports = s.ports := setCsr_ports _ _
@[simp] theorem writeGrossRate_history (s : State) (r : BitVec 32) :
    (s.writeGrossRate r).history = s.history := setCsr_history _ _
@[simp] theorem writeGrossRate_cfg (s : State) (r : BitVec 32) :
    (s.writeGrossRate r).cfg = s.cfg := setCsr_cfg _ _
@[simp] theorem writeGrossRate_active (s : State) (r : BitVec 32) :
    (s.writeGrossRate r).active = s.active := setCsr_active _ _
@[simp] theorem writeGrossRate_hostQueue (s : State) (r : BitVec 32) :
    (s.writeGrossRate r).hostQueue = s.hostQueue := setCsr_hostQueue _ _
@[simp] theorem writeGrossRate_verdicts (s : State) (r : BitVec 32) :
    (s.writeGrossRate r).verdicts = s.verdicts := setCsr_verdicts _ _
@[simp] theorem writeGrossRate_schedule (s : State) (r : BitVec 32) :
    (s.writeGrossRate r).schedule = s.schedule := setCsr_schedule _ _
@[simp] theorem writeGrossRate_draws (s : State) (r : BitVec 32) :
    (s.writeGrossRate r).draws = s.draws := setCsr_draws _ _

/-! `latchClock` -/

@[simp] theorem latchClock_csr (s : State) :
    (s.latchClock).csr = s.csr := (setClockRegister_csr _ _ _).trans (sampled_csr s)
@[simp] theorem latchClock_todValue (s : State) :
    (s.latchClock).todValue = s.fetched := setClockRegister_todValue _ _ _
@[simp] theorem latchClock_cpus (s : State) :
    (s.latchClock).cpus = s.cpus.map (cptSample s.cfg.cptShift s.now) := setClockRegister_cpus _ _ _
@[simp] theorem latchClock_glock (s : State) :
    (s.latchClock).glock = s.glock := (setClockRegister_glock _ _ _).trans (sampled_glock s)
@[simp] theorem latchClock_mem (s : State) :
    (s.latchClock).mem = s.mem := (setClockRegister_mem _ _ _).trans (sampled_mem s)
@[simp] theorem latchClock_keyRc (s : State) :
    (s.latchClock).keyRc = s.keyRc := (setClockRegister_keyRc _ _ _).trans (sampled_keyRc s)
@[simp] theorem latchClock_ports (s : State) :
    (s.latchClock).ports = s.ports := (setClockRegister_ports _ _ _).trans (sampled_ports s)
@[simp] theorem latchClock_history (s : State) :
    (s.latchClock).history = .host s.hostSample :: s.history := (setClockRegister_history _ _ _).trans (sampled_history s)
@[simp] theorem latchClock_cfg (s : State) :
    (s.latchClock).cfg = s.cfg := (setClockRegister_cfg _ _ _).trans (sampled_cfg s)
@[simp] theorem latchClock_active (s : State) :
    (s.latchClock).active = s.active := (setClockRegister_active _ _ _).trans (sampled_active s)
@[simp] theorem latchClock_hostQueue (s : State) :
    (s.latchClock).hostQueue = s.hostQueue.tail := (setClockRegister_hostQueue _ _ _).trans (sampled_hostQueue s)
@[simp] theorem latchClock_verdicts (s : State) :
    (s.latchClock).verdicts = s.verdicts := (setClockRegister_verdicts _ _ _).trans (sampled_verdicts s)
@[simp] theorem latchClock_schedule (s : State) :
    (s.latchClock).schedule = s.schedule := (setClockRegister_schedule _ _ _).trans (sampled_schedule s)
@[simp] theorem latchClock_draws (s : State) :
    (s.latchClock).draws = if s.hostQueue.isEmpty then s.draws + 1 else s.draws := (setClockRegister_draws _ _ _).trans (sampled_draws s)

/-! `ticksTaken` -/

@[simp] theorem ticksTaken_csr (s : State) (d : Word) : (s.ticksTaken d).csr = s.csr := by rfl
@[simp] theorem ticksTaken_todValue (s : State) (d : Word) : (s.ticksTaken d).todValue = s.todValue := by rfl
@[simp] theorem ticksTaken_cpus (s : State) (d : Word) : (s.ticksTaken d).cpus = s.cpus := by rfl
@[simp] theorem ticksTaken_glock (s : State) (d : Word) : (s.ticksTaken d).glock = s.glock := by rfl
@[simp] theorem ticksTaken_mem (s : State) (d : Word) : (s.ticksTaken d).mem = s.mem := by rfl
@[simp] theorem ticksTaken_keyRc (s : State) (d : Word) : (s.ticksTaken d).keyRc = s.keyRc := by rfl
@[simp] theorem ticksTaken_ports (s : State) (d : Word) : (s.ticksTaken d).ports = s.ports := by rfl
@[simp] theorem ticksTaken_history (s : State) (d : Word) : (s.ticksTaken d).history = s.history := by rfl
@[simp] theorem ticksTaken_cfg (s : State) (d : Word) : (s.ticksTaken d).cfg = s.cfg := by rfl
@[simp] theorem ticksTaken_active (s : State) (d : Word) : (s.ticksTaken d).active = s.active := by rfl
@[simp] theorem ticksTaken_hostQueue (s : State) (d : Word) : (s.ticksTaken d).hostQueue = s.hostQueue := by rfl
@[simp] theorem ticksTaken_verdicts (s : State) (d : Word) : (s.ticksTaken d).verdicts = s.verdicts := by rfl
@[simp] theorem ticksTaken_schedule (s : State) (d : Word) : (s.ticksTaken d).schedule = s.schedule := by rfl
@[simp] theorem ticksTaken_draws (s : State) (d : Word) :
    (s.ticksTaken d).draws = if tickInRange d then s.draws else s.draws + 1 := by rfl

/-! `acquireGlock` -/

@[simp] theorem acquireGlock_csr (s : State) : (s.acquireGlock).csr = s.csr := by rfl
@[simp] theorem acquireGlock_todValue (s : State) : (s.acquireGlock).todValue = s.todValue := by rfl
@[simp] theorem acquireGlock_cpus (s : State) : (s.acquireGlock).cpus = s.cpus := by rfl
@[simp] theorem acquireGlock_glock (s : State) : (s.acquireGlock).glock = .held s.active := by rfl
@[simp] theorem acquireGlock_mem (s : State) : (s.acquireGlock).mem = s.mem := by rfl
@[simp] theorem acquireGlock_keyRc (s : State) : (s.acquireGlock).keyRc = s.keyRc := by rfl
@[simp] theorem acquireGlock_ports (s : State) : (s.acquireGlock).ports = s.ports := by rfl
@[simp] theorem acquireGlock_history (s : State) :
    (s.acquireGlock).history = .acq s.active :: s.history := by rfl
@[simp] theorem acquireGlock_cfg (s : State) : (s.acquireGlock).cfg = s.cfg := by rfl
@[simp] theorem acquireGlock_active (s : State) : (s.acquireGlock).active = s.active := by rfl
@[simp] theorem acquireGlock_hostQueue (s : State) : (s.acquireGlock).hostQueue = s.hostQueue := by rfl
@[simp] theorem acquireGlock_verdicts (s : State) : (s.acquireGlock).verdicts = s.verdicts := by rfl
@[simp] theorem acquireGlock_schedule (s : State) : (s.acquireGlock).schedule = s.schedule := by rfl
@[simp] theorem acquireGlock_draws (s : State) : (s.acquireGlock).draws = s.draws := by rfl

/-! `releaseGlock` -/

@[simp] theorem releaseGlock_csr (s : State) : (s.releaseGlock).csr = s.csr := by rfl
@[simp] theorem releaseGlock_todValue (s : State) : (s.releaseGlock).todValue = s.todValue := by rfl
@[simp] theorem releaseGlock_cpus (s : State) : (s.releaseGlock).cpus = s.cpus := by rfl
@[simp] theorem releaseGlock_glock (s : State) : (s.releaseGlock).glock = .free := by rfl
@[simp] theorem releaseGlock_mem (s : State) : (s.releaseGlock).mem = s.mem := by rfl
@[simp] theorem releaseGlock_keyRc (s : State) : (s.releaseGlock).keyRc = s.keyRc := by rfl
@[simp] theorem releaseGlock_ports (s : State) : (s.releaseGlock).ports = s.ports := by rfl
@[simp] theorem releaseGlock_history (s : State) :
    (s.releaseGlock).history = .rel s.active :: s.history := by rfl
@[simp] theorem releaseGlock_cfg (s : State) : (s.releaseGlock).cfg = s.cfg := by rfl
@[simp] theorem releaseGlock_active (s : State) : (s.releaseGlock).active = s.active := by rfl
@[simp] theorem releaseGlock_hostQueue (s : State) : (s.releaseGlock).hostQueue = s.hostQueue := by rfl
@[simp] theorem releaseGlock_verdicts (s : State) : (s.releaseGlock).verdicts = s.verdicts := by rfl
@[simp] theorem releaseGlock_schedule (s : State) : (s.releaseGlock).schedule = s.schedule := by rfl
@[simp] theorem releaseGlock_draws (s : State) : (s.releaseGlock).draws = s.draws := by rfl

/-! `turnTaken` -/

@[simp] theorem turnTaken_csr (s : State) : (s.turnTaken).csr = s.csr := by rfl
@[simp] theorem turnTaken_todValue (s : State) : (s.turnTaken).todValue = s.todValue := by rfl
@[simp] theorem turnTaken_cpus (s : State) : (s.turnTaken).cpus = s.cpus := by rfl
@[simp] theorem turnTaken_glock (s : State) : (s.turnTaken).glock = s.glock := by rfl
@[simp] theorem turnTaken_mem (s : State) : (s.turnTaken).mem = s.mem := by rfl
@[simp] theorem turnTaken_keyRc (s : State) : (s.turnTaken).keyRc = s.keyRc := by rfl
@[simp] theorem turnTaken_ports (s : State) : (s.turnTaken).ports = s.ports := by rfl
@[simp] theorem turnTaken_history (s : State) : (s.turnTaken).history = s.history := by rfl
@[simp] theorem turnTaken_cfg (s : State) : (s.turnTaken).cfg = s.cfg := by rfl
@[simp] theorem turnTaken_active (s : State) : (s.turnTaken).active = s.active := by rfl
@[simp] theorem turnTaken_hostQueue (s : State) : (s.turnTaken).hostQueue = s.hostQueue := by rfl
@[simp] theorem turnTaken_verdicts (s : State) : (s.turnTaken).verdicts = s.verdicts := by rfl
@[simp] theorem turnTaken_schedule (s : State) : (s.turnTaken).schedule = s.schedule.tail := by rfl
@[simp] theorem turnTaken_draws (s : State) :
    (s.turnTaken).draws = if s.schedule.isEmpty then s.draws + 1 else s.draws := by rfl

/-! `select` -/

@[simp] theorem select_csr (s : State) : (s.select).csr = s.csr := by rfl
@[simp] theorem select_todValue (s : State) : (s.select).todValue = s.todValue := by rfl
@[simp] theorem select_cpus (s : State) : (s.select).cpus = s.cpus := by rfl
@[simp] theorem select_glock (s : State) : (s.select).glock = s.glock := by rfl
@[simp] theorem select_mem (s : State) : (s.select).mem = s.mem := by rfl
@[simp] theorem select_keyRc (s : State) : (s.select).keyRc = s.keyRc := by rfl
@[simp] theorem select_ports (s : State) : (s.select).ports = s.ports := by rfl
@[simp] theorem select_history (s : State) : (s.select).history = s.history := by rfl
@[simp] theorem select_cfg (s : State) : (s.select).cfg = s.cfg := by rfl
@[simp] theorem select_active (s : State) : (s.select).active = s.nextPort := by rfl
@[simp] theorem select_hostQueue (s : State) : (s.select).hostQueue = s.hostQueue := by rfl
@[simp] theorem select_verdicts (s : State) : (s.select).verdicts = s.verdicts := by rfl
@[simp] theorem select_schedule (s : State) : (s.select).schedule = s.schedule.tail := by rfl
@[simp] theorem select_draws (s : State) :
    (s.select).draws = if s.schedule.isEmpty then s.draws + 1 else s.draws := by rfl

/-! `sampleSlot` -/

@[simp] theorem sampleSlot_csr (s : State) (c : BitVec 8) :
    (s.sampleSlot c).csr = s.sampled.csr := by rfl
@[simp] theorem sampleSlot_todValue (s : State) (c : BitVec 8) :
    (s.sampleSlot c).todValue = s.sampled.todValue := by rfl
@[simp] theorem sampleSlot_glock (s : State) (c : BitVec 8) :
    (s.sampleSlot c).glock = s.sampled.glock := by rfl
@[simp] theorem sampleSlot_mem (s : State) (c : BitVec 8) :
    (s.sampleSlot c).mem = s.sampled.mem := by rfl
@[simp] theorem sampleSlot_keyRc (s : State) (c : BitVec 8) :
    (s.sampleSlot c).keyRc = s.sampled.keyRc := by rfl
@[simp] theorem sampleSlot_ports (s : State) (c : BitVec 8) :
    (s.sampleSlot c).ports = s.sampled.ports := by rfl
@[simp] theorem sampleSlot_history (s : State) (c : BitVec 8) :
    (s.sampleSlot c).history = s.sampled.history := by rfl
@[simp] theorem sampleSlot_cfg (s : State) (c : BitVec 8) :
    (s.sampleSlot c).cfg = s.sampled.cfg := by rfl
@[simp] theorem sampleSlot_active (s : State) (c : BitVec 8) :
    (s.sampleSlot c).active = s.sampled.active := by rfl
@[simp] theorem sampleSlot_hostQueue (s : State) (c : BitVec 8) :
    (s.sampleSlot c).hostQueue = s.sampled.hostQueue := by rfl
@[simp] theorem sampleSlot_verdicts (s : State) (c : BitVec 8) :
    (s.sampleSlot c).verdicts = s.sampled.verdicts := by rfl
@[simp] theorem sampleSlot_schedule (s : State) (c : BitVec 8) :
    (s.sampleSlot c).schedule = s.sampled.schedule := by rfl
@[simp] theorem sampleSlot_draws (s : State) (c : BitVec 8) :
    (s.sampleSlot c).draws = s.sampled.draws := by rfl
@[simp] theorem sampleSlot_cpus (s : State) (c : BitVec 8) :
    (s.sampleSlot c).cpus = s.cpus.modify c.toNat (cptSample s.cfg.cptShift s.now) := by rfl

/-! Slots: each field after each setter of a slot. -/

@[simp] theorem setTodEpoch_todEpoch (v : Word) (c : Cpu) : (setTodEpoch v c).todEpoch = v := by rfl
@[simp] theorem setTodEpoch_cptBase (v : Word) (c : Cpu) : (setTodEpoch v c).cptBase = c.cptBase := by rfl
@[simp] theorem setTodEpoch_cptArmed (v : Word) (c : Cpu) : (setTodEpoch v c).cptArmed = c.cptArmed := by rfl
@[simp] theorem setTodEpoch_cptPending (v : Word) (c : Cpu) : (setTodEpoch v c).cptPending = c.cptPending := by rfl
@[simp] theorem setTodEpoch_itBase (v : Word) (c : Cpu) : (setTodEpoch v c).itBase = c.itBase := by rfl

@[simp] theorem setItBase_todEpoch (v : Word) (c : Cpu) : (setItBase v c).todEpoch = c.todEpoch := by rfl
@[simp] theorem setItBase_cptBase (v : Word) (c : Cpu) : (setItBase v c).cptBase = c.cptBase := by rfl
@[simp] theorem setItBase_cptArmed (v : Word) (c : Cpu) : (setItBase v c).cptArmed = c.cptArmed := by rfl
@[simp] theorem setItBase_cptPending (v : Word) (c : Cpu) : (setItBase v c).cptPending = c.cptPending := by rfl
@[simp] theorem setItBase_itBase (v : Word) (c : Cpu) : (setItBase v c).itBase = v := by rfl

@[simp] theorem clearPending_todEpoch (c : Cpu) : (clearPending c).todEpoch = c.todEpoch := by rfl
@[simp] theorem clearPending_cptBase (c : Cpu) : (clearPending c).cptBase = c.cptBase := by rfl
@[simp] theorem clearPending_cptArmed (c : Cpu) : (clearPending c).cptArmed = c.cptArmed := by rfl
@[simp] theorem clearPending_cptPending (c : Cpu) : (clearPending c).cptPending = false := by rfl
@[simp] theorem clearPending_itBase (c : Cpu) : (clearPending c).itBase = c.itBase := by rfl

@[simp] theorem setCptBase_todEpoch (n : Nat) (now v : Word) (c : Cpu) : (setCptBase n now v c).todEpoch = c.todEpoch := by rfl
@[simp] theorem setCptBase_cptBase (n : Nat) (now v : Word) (c : Cpu) : (setCptBase n now v c).cptBase = now + asr64 v n := by rfl
@[simp] theorem setCptBase_cptArmed (n : Nat) (now v : Word) (c : Cpu) : (setCptBase n now v c).cptArmed = c.cptArmed := by rfl
@[simp] theorem setCptBase_cptPending (n : Nat) (now v : Word) (c : Cpu) : (setCptBase n now v c).cptPending = c.cptPending := by rfl
@[simp] theorem setCptBase_itBase (n : Nat) (now v : Word) (c : Cpu) : (setCptBase n now v c).itBase = c.itBase := by rfl

end Sys2Proof.Machine
end

