-- ==== Sys2Proof/Laws/Ports.lean ====
section
/-! SUPPORT. What the end of a command and a wait do to the ports, and the frames of the operations that only
answer. -/

namespace Sys2Proof.Machine

/-! ### One port of the list -/

theorem portAt_of_ports {s t : State} (h : t.ports = s.ports) (p : Nat) : t.portAt p = s.portAt p := by
  simp [State.portAt, h]

theorem portAt_modify_self {s t : State} {f : Port → Port} (h : t.ports = s.ports.modify s.active f)
    (hl : s.live) : t.portAt s.active = f (s.portAt s.active) := by
  have hl' : s.active < s.ports.length := hl
  simp [State.portAt, h, hl']

theorem portAt_modify_ne {s t : State} {f : Port → Port} {p : Nat}
    (h : t.ports = s.ports.modify s.active f) (hp : p ≠ s.active) : t.portAt p = s.portAt p := by
  simp [State.portAt, h, List.getD_eq_getElem?_getD, Ne.symm hp]

theorem length_of_modify {s t : State} {f : Port → Port} (h : t.ports = s.ports.modify s.active f) :
    t.ports.length = s.ports.length := by simp [h]

/-! ### Answers and waits -/

/-- A state whose issuing port was answered with `r`. -/
theorem answered_of_ports {s t : State} {r : Response}
    (h : t.ports = s.ports.modify s.active (Port.answer r)) (hl : s.live) : Answered s t r where
  response := by simp [State.responseOf, portAt_modify_self h hl, Port.answer]
  notHeld := by simp [State.heldAt, portAt_modify_self h hl, Port.answer]
  consumed := by simp [State.requestsOf, portAt_modify_self h hl, Port.answer]
  others _ hp := portAt_modify_ne h hp

/-- A state whose issuing port was made to wait. -/
theorem waiting_of_ports {s t : State} (h : t.ports = s.ports.modify s.active Port.wait) (hl : s.live) :
    Waiting s t where
  noResponse := by simp [State.responseOf, portAt_modify_self h hl, Port.wait]
  held := by simp [State.heldAt, portAt_modify_self h hl, Port.wait]
  outstanding := by simp [State.requestsOf, portAt_modify_self h hl, Port.wait]
  others _ hp := portAt_modify_ne h hp

/-- A command answers once: the response is a function of the two states. -/
theorem answered_unique {s t : State} {r r' : Response} (h : Answered s t r) (h' : Answered s t r') :
    r = r' :=
  Option.some.inj (h.response.symm.trans h'.response)

/-- A command that waits is not answered. -/
theorem waiting_not_answered {s t : State} {r : Response} (h : Waiting s t) : ¬Answered s t r :=
  fun h' => by simpa [h.noResponse] using h'.response

/-! ### Frames -/

theorem storageKept_of_eq {s t : State} (hm : t.mem = s.mem) (hk : t.keyRc = s.keyRc) : StorageKept s t where
  bytes a := by simp [State.byteAt, hm]
  flags f := by simp [State.keyFlags, hk]

theorem blockKept_of_eq {s t : State} (h1 : t.csr = s.csr) (h2 : t.todValue = s.todValue)
    (h3 : t.cpus = s.cpus) (h4 : t.glock = s.glock) (h5 : t.mem = s.mem) (h6 : t.keyRc = s.keyRc)
    (h7 : t.cfg = s.cfg) : BlockKept s t :=
  ⟨⟨h1, h2⟩, h3, h4, storageKept_of_eq h5 h6, h7⟩

theorem onlyAnswered_complete (s : State) (r : Response) (hl : s.live) : OnlyAnswered s (s.complete r) r :=
  ⟨answered_of_ports rfl hl, blockKept_of_eq rfl rfl rfl rfl rfl rfl rfl, rfl, rfl⟩

theorem onlyAnswered_takeInterrupt (s : State) (c : PgmCode) (k : Response) (hl : s.live) :
    OnlyAnswered s (s.takeInterrupt c k) (Response.interrupt c k) :=
  onlyAnswered_complete s _ hl

theorem onlyAnswered_raisePgm (s : State) (c : PgmCode) (hl : s.live) :
    OnlyAnswered s (s.raisePgm c) (pgmOnly c.pic) :=
  onlyAnswered_complete s _ hl

theorem sampledAndAnswered_complete (s : State) (r : Response) (hl : s.live) :
    SampledAndAnswered s (s.sampled.complete r) r :=
  ⟨answered_of_ports rfl hl, blockKept_of_eq rfl rfl rfl rfl rfl rfl rfl, rfl, rfl⟩

theorem waiting_hold (s : State) (hl : s.live) : Waiting s s.hold := waiting_of_ports rfl hl

theorem blockKept_hold (s : State) : BlockKept s s.hold := blockKept_of_eq rfl rfl rfl rfl rfl rfl rfl

/-- The model's `DONE` responses in the terms of the claims. -/
theorem responseValue_eq (v : Wide) : Response.value v = doneWide v := rfl

theorem responseWord_eq (v : Word) : Response.word v = doneWord v := by
  simp [Response.word, responseValue_eq, doneWord, wideOfWord]

theorem responseOk_eq : Response.ok = doneEmpty := rfl

theorem responseBusy_eq : Response.busy = ⟨.busy, 0#16, 0#2, false, false, 0#128⟩ := rfl

end Sys2Proof.Machine
end

