-- ==== Sys2Proof/Laws/Ops.lean ====
section
/-! SUPPORT. For each shared operation of the meanings, one lemma that says once everything it can do. -/

namespace Sys2Proof.Machine

/-! ### Checks -/

/-- A privileged command runs, or takes the privileged-operation interrupt. -/
theorem privileged_cases (s : State) (p : Bool) (run : State → State) :
    (p = true ∧ s.privileged p run = run s) ∨
      (p = false ∧ s.privileged p run = s.raisePgm .privilegedOperation) := by
  cases p <;> simp [State.privileged]

/-- A command of family 5 runs, or takes the operation interrupt. -/
theorem longForm_cases (s : State) (run : State → State) :
    (s.cfg.hasLong = true ∧ s.longForm run = run s) ∨
      (s.cfg.hasLong = false ∧ s.longForm run = s.raisePgm .operation) := by
  cases h : s.cfg.hasLong <;> simp [State.longForm, h]

/-- A command on a slot runs on one that exists, or takes the specification interrupt. -/
theorem withSlot_cases (s : State) (c : BitVec 8) (run : State → State) :
    (c.toNat < s.cpus.length ∧ s.withSlot c run = run s) ∨
      (s.cpus.length ≤ c.toNat ∧ s.withSlot c run = s.raisePgm .specification) := by
  by_cases h : c.toNat < s.cpus.length
  · exact .inl ⟨h, if_pos h⟩
  · exact .inr ⟨Nat.le_of_not_lt h, if_neg h⟩

/-- What `AccessCheck` can answer: a draw, which uses one verdict up, or the configured function's value. -/
theorem verdictFor_cases (s : State) (a : Word) (n : Nat) :
    (s.cfg.accessCheck = .perCall ∧ s.verdictFor a n = s.drawnVerdict a n .rmw ∧
        s.verdictsLeft = s.verdicts.tail) ∨
      ∃ rules otherwise, s.cfg.accessCheck = .function rules otherwise ∧
        s.verdictFor a n = accessValue otherwise a n .rmw rules ∧ s.verdictsLeft = s.verdicts := by
  cases h : s.cfg.accessCheck with
  | perCall => exact .inl ⟨rfl, by simp [State.verdictFor, h], by simp [State.verdictsLeft, h]⟩
  | function rules otherwise =>
    exact .inr ⟨rules, otherwise, rfl, by simp [State.verdictFor, h], by simp [State.verdictsLeft, h]⟩

/-- A memory command goes on with the question asked, or ends with the fault's code. -/
theorem withAccess_cases (s : State) (a : Word) (n : Nat) (run : State → State) :
    (s.verdictFor a n = .granted ∧ s.withAccess a n run = run s.asked) ∨
      ∃ f, s.verdictFor a n = .faulted f ∧ s.withAccess a n run = s.asked.raisePgm (accessCode f) := by
  cases h : s.verdictFor a n with
  | granted => exact .inl ⟨rfl, by simp [State.withAccess, h]⟩
  | faulted f => exact .inr ⟨f, rfl, by simp [State.withAccess, h]⟩

/-- A pair form goes on with even registers, or takes the specification interrupt. -/
theorem withPair_cases (s : State) (r1 r3 : BitVec 4) (run : State → State) :
    (pairOk r1 r3 = true ∧ s.withPair r1 r3 run = run s) ∨
      (pairOk r1 r3 = false ∧ s.withPair r1 r3 run = s.raisePgm .specification) := by
  unfold State.withPair pairOk
  generalize r1.getLsbD 0 = x, r3.getLsbD 0 = y
  cases x <;> cases y <;> simp

/-- A compare and swap goes on with an aligned operand, or takes the specification interrupt. -/
theorem withAligned_cases (s : State) (n : Nat) (run : State → State) :
    (s.opAd.toNat % n = 0 ∧ s.withAligned n run = run s) ∨
      (s.opAd.toNat % n ≠ 0 ∧ s.withAligned n run = s.raisePgm .specification) := by
  by_cases h : s.opAd.toNat % n = 0
  · exact .inl ⟨h, if_pos h⟩
  · exact .inr ⟨h, if_neg h⟩

/-- A signed form ends with the completing interrupt, or with its result. -/
theorem endSigned_cases (s : State) (m ovf : Bool) (r : Word) :
    (ovf = true ∧ m = true ∧
        s.endSigned m ovf r = s.takeInterrupt .fixedPointOverflow (signedResponse ovf r)) ∨
      ((ovf && m) = false ∧ s.endSigned m ovf r = s.complete (signedResponse ovf r)) := by
  cases ovf <;> cases m <;> simp [State.endSigned]

/-! ### Locks -/

/-- A blocking lock sets a clear bit, or waits. -/
theorem lockOrHold_cases (s : State) (site : Word × Byte) :
    (s.byteAt site.1 &&& site.2 = 0#8 ∧
        s.lockOrHold site = s.rewriteLockByte site.1 (s.byteAt site.1 ||| site.2)) ∨
      (s.byteAt site.1 &&& site.2 ≠ 0#8 ∧ s.lockOrHold site = s.hold) := by
  by_cases h : s.byteAt site.1 &&& site.2 = 0#8
  · exact .inl ⟨h, if_pos h⟩
  · exact .inr ⟨h, if_neg h⟩

/-- A try-once lock sets a clear bit, or answers `BUSY`. -/
theorem lockOrBusy_cases (s : State) (site : Word × Byte) :
    (s.byteAt site.1 &&& site.2 = 0#8 ∧
        s.lockOrBusy site = s.rewriteLockByte site.1 (s.byteAt site.1 ||| site.2)) ∨
      (s.byteAt site.1 &&& site.2 ≠ 0#8 ∧
        s.lockOrBusy site =
          (s.readRmw site.1 1 (wideOfByte (s.byteAt site.1))).complete Response.busy) := by
  by_cases h : s.byteAt site.1 &&& site.2 = 0#8
  · exact .inl ⟨h, if_pos h⟩
  · exact .inr ⟨h, if_neg h⟩

@[simp] theorem byteAt_asked (s : State) (a : Word) : s.asked.byteAt a = s.byteAt a := by rfl
@[simp] theorem byteAt_serialize (s : State) (a : Word) : s.serialize.byteAt a = s.byteAt a := by rfl
@[simp] theorem verdictFor_serialize (s : State) (a : Word) (n : Nat) :
    s.serialize.verdictFor a n = s.verdictFor a n := by rfl
@[simp] theorem verdictsLeft_serialize (s : State) : s.serialize.verdictsLeft = s.verdictsLeft := by rfl

/-- What `LOCK` can do: an access fault, the bit set, or a wait, with the access asked unless it was held. -/
theorem lock_cases (s : State) (k : LockKind) :
    (s.wasHeld = false ∧ ∃ f, s.verdictFor (s.site k).1 1 = .faulted f ∧
        s.lock k = s.asked.raisePgm (accessCode f)) ∨
      ∃ u, (s.wasHeld = true ∧ u = s ∨
          s.wasHeld = false ∧ s.verdictFor (s.site k).1 1 = .granted ∧ u = s.asked) ∧
        ((s.byteAt (s.site k).1 &&& (s.site k).2 = 0#8 ∧
            s.lock k = u.rewriteLockByte (s.site k).1 (s.byteAt (s.site k).1 ||| (s.site k).2)) ∨
          (s.byteAt (s.site k).1 &&& (s.site k).2 ≠ 0#8 ∧ s.lock k = u.hold)) := by
  cases hw : s.wasHeld with
  | true =>
    refine .inr ⟨s, .inl ⟨rfl, rfl⟩, ?_⟩
    simpa [State.lock, hw] using lockOrHold_cases s (s.site k)
  | false =>
    rcases withAccess_cases s (s.site k).1 1 (fun s' => s'.lockOrHold (s.site k)) with ⟨hv, he⟩ | ⟨f, hv, he⟩
    · refine .inr ⟨s.asked, .inr ⟨rfl, hv, rfl⟩, ?_⟩
      simp only [State.lock, hw, Bool.false_eq_true, if_false, he]
      exact lockOrHold_cases s.asked (s.site k)
    · refine .inl ⟨rfl, f, hv, ?_⟩
      simpa [State.lock, hw] using he

/-- What `TRYLOCK` can do: an access fault, the bit set, or `BUSY`. -/
theorem tryLock_cases (s : State) (k : LockKind) :
    (∃ f, s.verdictFor (s.site k).1 1 = .faulted f ∧ s.tryLock k = s.asked.raisePgm (accessCode f)) ∨
      (s.verdictFor (s.site k).1 1 = .granted ∧ s.byteAt (s.site k).1 &&& (s.site k).2 = 0#8 ∧
        s.tryLock k = s.asked.rewriteLockByte (s.site k).1 (s.byteAt (s.site k).1 ||| (s.site k).2)) ∨
      (s.verdictFor (s.site k).1 1 = .granted ∧ s.byteAt (s.site k).1 &&& (s.site k).2 ≠ 0#8 ∧
        s.tryLock k = (s.asked.readRmw (s.site k).1 1 (wideOfByte (s.byteAt (s.site k).1))).complete
          Response.busy) := by
  rcases withAccess_cases s (s.site k).1 1 (fun s' => s'.lockOrBusy (s.site k)) with ⟨hv, he⟩ | ⟨f, hv, he⟩
  · rcases lockOrBusy_cases s.asked (s.site k) with ⟨hb, hl⟩ | ⟨hb, hl⟩
    · exact .inr (.inl ⟨hv, hb, he.trans hl⟩)
    · exact .inr (.inr ⟨hv, hb, he.trans hl⟩)
  · exact .inl ⟨f, hv, he⟩

/-- What `UNLOCK` can do: an access fault, or the bit cleared. -/
theorem unlock_cases (s : State) (k : LockKind) :
    (∃ f, s.verdictFor (s.site k).1 1 = .faulted f ∧ s.unlock k = s.asked.raisePgm (accessCode f)) ∨
      (s.verdictFor (s.site k).1 1 = .granted ∧
        s.unlock k =
          s.asked.rewriteLockByte (s.site k).1 (s.byteAt (s.site k).1 &&& ~~~(s.site k).2)) := by
  rcases withAccess_cases s (s.site k).1 1
    (fun s' => s'.rewriteLockByte (s.site k).1 (s'.byteAt (s.site k).1 &&& ~~~(s.site k).2)) with
    ⟨hv, he⟩ | ⟨f, hv, he⟩
  · exact .inr ⟨hv, he⟩
  · exact .inl ⟨f, hv, he⟩

/-! `rewriteLockByte` -/

@[simp] theorem rewriteLockByte_csr (s : State) (a : Word) (v : Byte) :
    (s.rewriteLockByte a v).csr = s.csr := by rfl
@[simp] theorem rewriteLockByte_todValue (s : State) (a : Word) (v : Byte) :
    (s.rewriteLockByte a v).todValue = s.todValue := by rfl
@[simp] theorem rewriteLockByte_cpus (s : State) (a : Word) (v : Byte) :
    (s.rewriteLockByte a v).cpus = s.cpus := by rfl
@[simp] theorem rewriteLockByte_glock (s : State) (a : Word) (v : Byte) :
    (s.rewriteLockByte a v).glock = s.glock := by rfl
@[simp] theorem rewriteLockByte_cfg (s : State) (a : Word) (v : Byte) :
    (s.rewriteLockByte a v).cfg = s.cfg := by rfl
@[simp] theorem rewriteLockByte_active (s : State) (a : Word) (v : Byte) :
    (s.rewriteLockByte a v).active = s.active := by rfl
@[simp] theorem rewriteLockByte_hostQueue (s : State) (a : Word) (v : Byte) :
    (s.rewriteLockByte a v).hostQueue = s.hostQueue := by rfl
@[simp] theorem rewriteLockByte_verdicts (s : State) (a : Word) (v : Byte) :
    (s.rewriteLockByte a v).verdicts = s.verdicts := by rfl
@[simp] theorem rewriteLockByte_draws (s : State) (a : Word) (v : Byte) :
    (s.rewriteLockByte a v).draws = s.draws := by rfl
@[simp] theorem rewriteLockByte_ports (s : State) (a : Word) (v : Byte) :
    (s.rewriteLockByte a v).ports = s.ports.modify s.active (Port.answer Response.ok) := by rfl
@[simp] theorem rewriteLockByte_history (s : State) (a : Word) (v : Byte) :
    (s.rewriteLockByte a v).history =
      .rmw s.active a 1 (wideOfByte (s.byteAt a)) (wideOfByte v) true :: s.history := by rfl
@[simp] theorem rewriteLockByte_mem (s : State) (a : Word) (v : Byte) :
    (s.rewriteLockByte a v).mem = memWrite s.mem a 1 (wideOfByte v) := by rfl

theorem setWidth_wideOfByte (v : Byte) : (wideOfByte v).setWidth 8 = v := by
  simp [wideOfByte, BitVec.setWidth_setWidth_of_le]

theorem byteAt_rewriteLockByte_self (s : State) (a : Word) (v : Byte) (h : Memory.wf s.mem = true) :
    (s.rewriteLockByte a v).byteAt a = v := by
  simpa [State.byteAt, setWidth_wideOfByte] using memByte_memWrite_one a (wideOfByte v) h

theorem byteAt_rewriteLockByte_ne (s : State) (a : Word) (v : Byte) {b : Word} (h : b ≠ a) :
    (s.rewriteLockByte a v).byteAt b = s.byteAt b :=
  memByte_memWrite_outside _ _ _ _ (by intro j hj; have : j = 0 := by omega
                                       simpa [this] using h)

theorem keyFlags_rewriteLockByte_self (s : State) (a : Word) (v : Byte) :
    (s.rewriteLockByte a v).keyFlags (frameOf s.cfg a) = ⟨true, true⟩ :=
  keyFlags_setRC_self (s.storeRmw a 1 _ _) a

theorem keyFlags_rewriteLockByte_ne (s : State) (a : Word) (v : Byte) {f : Nat} (h : f ≠ frameOf s.cfg a) :
    (s.rewriteLockByte a v).keyFlags f = s.keyFlags f :=
  keyFlags_setRC_ne (s.storeRmw a 1 _ _) a h

/-! ### Compare and swap -/

/-- The access of a compare and swap: the equal or the unequal outcome. -/
theorem casAccess_cases (s : State) (n : Nat) (i : Bool) :
    (memRead s.mem s.opAd n = lowBytes n s.opA ∧
        s.casAccess n i = s.casEqual n (memRead s.mem s.opAd n)) ∨
      (memRead s.mem s.opAd n ≠ lowBytes n s.opA ∧
        s.casAccess n i = s.casUnequal n i (memRead s.mem s.opAd n)) := by
  by_cases h : memRead s.mem s.opAd n = lowBytes n s.opA
  · exact .inl ⟨h, by simp [State.casAccess, h]⟩
  · exact .inr ⟨h, by simp [State.casAccess, h]⟩

/-- What a compare and swap can do after its pairing check: the alignment interrupt, an access fault after the
first serialization, or its access. -/
theorem compareAndSwap_cases (s : State) (n : Nat) (i : Bool) :
    (s.opAd.toNat % n ≠ 0 ∧ s.compareAndSwap n i = s.raisePgm .specification) ∨
      (s.opAd.toNat % n = 0 ∧ ∃ f, s.verdictFor s.opAd n = .faulted f ∧
        s.compareAndSwap n i = s.serialize.asked.raisePgm (accessCode f)) ∨
      (s.opAd.toNat % n = 0 ∧ s.verdictFor s.opAd n = .granted ∧
        s.compareAndSwap n i = s.serialize.asked.casAccess n i) := by
  rcases withAligned_cases s n (fun s => s.serialize.withAccess s.opAd n fun s => s.casAccess n i) with
    ⟨ha, he⟩ | ⟨ha, he⟩
  · rcases withAccess_cases s.serialize s.opAd n (fun s => s.casAccess n i) with ⟨hv, hw⟩ | ⟨f, hv, hw⟩
    · exact .inr (.inr ⟨ha, hv, he.trans hw⟩)
    · exact .inr (.inl ⟨ha, f, hv, he.trans hw⟩)
  · exact .inl ⟨ha, he⟩

/-- The configuration, the request and the operands do not move while a command runs its checks. -/
@[simp] theorem opAd_serialize_asked (s : State) : s.serialize.asked.opAd = s.opAd := by rfl
@[simp] theorem opA_serialize_asked (s : State) : s.serialize.asked.opA = s.opA := by rfl
@[simp] theorem opB_serialize_asked (s : State) : s.serialize.asked.opB = s.opB := by rfl

/-! ### The timers' latch -/

/-- One sample of the latch: armed by a reading that is not negative, latched by the first negative one, else
unchanged. -/
theorem cptSample_cases (shift : Nat) (now : Word) (c : Cpu) :
    ((cptVal shift now c).msb = false ∧ cptSample shift now c = { c with cptArmed := true }) ∨
      ((cptVal shift now c).msb = true ∧ c.cptArmed = true ∧
        cptSample shift now c = { c with cptPending := true, cptArmed := false }) ∨
      ((cptVal shift now c).msb = true ∧ c.cptArmed = false ∧ cptSample shift now c = c) := by
  cases h : (cptVal shift now c).msb <;> cases ha : c.cptArmed <;> simp [cptSample, h, ha]

@[simp] theorem cptSample_cptBase (shift : Nat) (now : Word) (c : Cpu) :
    (cptSample shift now c).cptBase = c.cptBase := by
  rcases cptSample_cases shift now c with ⟨_, h⟩ | ⟨_, _, h⟩ | ⟨_, _, h⟩ <;> rw [h]

@[simp] theorem cptSample_todEpoch (shift : Nat) (now : Word) (c : Cpu) :
    (cptSample shift now c).todEpoch = c.todEpoch := by
  rcases cptSample_cases shift now c with ⟨_, h⟩ | ⟨_, _, h⟩ | ⟨_, _, h⟩ <;> rw [h]

@[simp] theorem cptSample_itBase (shift : Nat) (now : Word) (c : Cpu) :
    (cptSample shift now c).itBase = c.itBase := by
  rcases cptSample_cases shift now c with ⟨_, h⟩ | ⟨_, _, h⟩ | ⟨_, _, h⟩ <;> rw [h]

@[simp] theorem setCptSampled_todEpoch (n : Nat) (now v : Word) (c : Cpu) :
    (setCptSampled n now v c).todEpoch = c.todEpoch := by simp [setCptSampled, cptSample_todEpoch]

@[simp] theorem setCptSampled_cptBase (n : Nat) (now v : Word) (c : Cpu) :
    (setCptSampled n now v c).cptBase = now + asr64 v n := by simp [setCptSampled, cptSample_cptBase]

@[simp] theorem setCptSampled_itBase (n : Nat) (now v : Word) (c : Cpu) :
    (setCptSampled n now v c).itBase = c.itBase := by simp [setCptSampled, cptSample_itBase]

/-- A sample never clears the pending latch. -/
theorem cptSample_keeps_pending (shift : Nat) (now : Word) (c : Cpu) (h : c.cptPending = true) :
    (cptSample shift now c).cptPending = true := by
  rcases cptSample_cases shift now c with ⟨_, e⟩ | ⟨_, _, e⟩ | ⟨_, _, e⟩ <;> simp [e, h]

/-! ### The step -/

/-- What a command word can do: run its command, or take the interrupt of a word that names none. -/
theorem runCommand_cases (s : State) :
    (∃ i, decode s.cfg.hasLong s.request.cw = .ok i ∧ runCommand s = exec i s) ∨
      ∃ r, decode s.cfg.hasLong s.request.cw = .error r ∧
        runCommand s = .next (s.raisePgm (rejectionCode r)) := by
  cases h : decode s.cfg.hasLong s.request.cw with
  | ok i => exact .inl ⟨i, rfl, by simp [runCommand, h]⟩
  | error r => exact .inr ⟨r, rfl, by simp [runCommand, h]⟩

/-- What a step can do: run the command of the port the schedule names, or pass the turn. -/
theorem step_cases (s : State) :
    (s.hasTurn = true ∧ step s = runCommand s.select) ∨ (s.hasTurn = false ∧ step s = .next s.turnTaken) := by
  cases h : s.hasTurn <;> simp [step, h]

end Sys2Proof.Machine
end

