-- ==== Sys2Proof/Laws/PerInstr.lean ====
section
/-! SUPPORT. The family `EncodeRow` of statements made per command: its encoding matches its row of the opcode
table (spec/30_encoding.md R103, R110 to R115). -/

namespace Sys2Proof.Laws.EncodeRow

/-- The encoding of a command, under the mask of its row, is the row's match value. -/
def Statement (i : Instr) : Prop :=
  encode i &&& (opcodeRow i).1 = (opcodeRow i).2

theorem eadd (p : Bool) :
    Statement (.eadd p) := by
  cases p <;> rfl

theorem esub (p : Bool) :
    Statement (.esub p) := by
  cases p <;> rfl

theorem eshf (p : Bool) :
    Statement (.eshf p) := by
  cases p <;> rfl

theorem e2t (p : Bool) :
    Statement (.e2t p) := by
  cases p <;> rfl

theorem t2e (p : Bool) :
    Statement (.t2e p) := by
  cases p <;> rfl

theorem h2e (p : Bool) :
    Statement (.h2e p) := by
  cases p <;> rfl

theorem h2eF (p : Bool) :
    Statement (.h2eF p) := by
  cases p <;> rfl

theorem hclk (p : Bool) :
    Statement (.hclk p) := by
  cases p <;> rfl

theorem csrrst (p : Bool) :
    Statement (.csrrst p) := by
  cases p <;> rfl

theorem setrateF (p : Bool) :
    Statement (.setrateF p) := by
  cases p <;> rfl

theorem setrateG (p : Bool) :
    Statement (.setrateG p) := by
  cases p <;> rfl

theorem getrateF (p : Bool) :
    Statement (.getrateF p) := by
  cases p <;> rfl

theorem getrateG (p : Bool) :
    Statement (.getrateG p) := by
  cases p <;> rfl

theorem getrateT (p : Bool) :
    Statement (.getrateT p) := by
  cases p <;> rfl

theorem fetch (p : Bool) :
    Statement (.fetch p) := by
  cases p <;> rfl

theorem setclk (p : Bool) :
    Statement (.setclk p) := by
  cases p <;> rfl

theorem adjoff (p : Bool) :
    Statement (.adjoff p) := by
  cases p <;> rfl

theorem update (p : Bool) :
    Statement (.update p) := by
  cases p <;> rfl

theorem getepo (p : Bool) (cpu : BitVec 8) :
    Statement (.getepo p cpu) := by
  cases p <;> revert cpu <;> unfold Statement <;> decide

theorem setepo (p : Bool) (cpu : BitVec 8) :
    Statement (.setepo p cpu) := by
  cases p <;> revert cpu <;> unfold Statement <;> decide

theorem todclk (p : Bool) (cpu : BitVec 8) :
    Statement (.todclk p cpu) := by
  cases p <;> revert cpu <;> unfold Statement <;> decide

theorem rdcsrSt (p : Bool) :
    Statement (.rdcsrSt p) := by
  cases p <;> rfl

theorem rdcsrBo (p : Bool) :
    Statement (.rdcsrBo p) := by
  cases p <;> rfl

theorem rdcsrTv (p : Bool) :
    Statement (.rdcsrTv p) := by
  cases p <;> rfl

theorem getcpt (p : Bool) (cpu : BitVec 8) :
    Statement (.getcpt p cpu) := by
  cases p <;> revert cpu <;> unfold Statement <;> decide

theorem setcpt (p : Bool) (cpu : BitVec 8) :
    Statement (.setcpt p cpu) := by
  cases p <;> revert cpu <;> unfold Statement <;> decide

theorem cptpnd (p : Bool) (cpu : BitVec 8) :
    Statement (.cptpnd p cpu) := by
  cases p <;> revert cpu <;> unfold Statement <;> decide

theorem getit (p : Bool) (cpu : BitVec 8) :
    Statement (.getit p cpu) := by
  cases p <;> revert cpu <;> unfold Statement <;> decide

theorem setit (p : Bool) (cpu : BitVec 8) :
    Statement (.setit p cpu) := by
  cases p <;> revert cpu <;> unfold Statement <;> decide

theorem it2e (p : Bool) :
    Statement (.it2e p) := by
  cases p <;> rfl

theorem e2it (p : Bool) :
    Statement (.e2it p) := by
  cases p <;> rfl

theorem lockR (p : Bool) :
    Statement (.lockR p) := by
  cases p <;> rfl

theorem lockP (p : Bool) :
    Statement (.lockP p) := by
  cases p <;> rfl

theorem lockS (p : Bool) :
    Statement (.lockS p) := by
  cases p <;> rfl

theorem trylockR (p : Bool) :
    Statement (.trylockR p) := by
  cases p <;> rfl

theorem trylockP (p : Bool) :
    Statement (.trylockP p) := by
  cases p <;> rfl

theorem trylockS (p : Bool) :
    Statement (.trylockS p) := by
  cases p <;> rfl

theorem unlockR (p : Bool) :
    Statement (.unlockR p) := by
  cases p <;> rfl

theorem unlockP (p : Bool) :
    Statement (.unlockP p) := by
  cases p <;> rfl

theorem unlockS (p : Bool) :
    Statement (.unlockS p) := by
  cases p <;> rfl

theorem gacq (p : Bool) :
    Statement (.gacq p) := by
  cases p <;> rfl

theorem grel (p : Bool) :
    Statement (.grel p) := by
  cases p <;> rfl

theorem casW (p : Bool) (i : Bool) :
    Statement (.casW p i) := by
  cases p <;> cases i <;> rfl

theorem casG (p : Bool) (i : Bool) :
    Statement (.casG p i) := by
  cases p <;> cases i <;> rfl

theorem casQ (p : Bool) (i : Bool) (r1 : BitVec 4) (r3 : BitVec 4) :
    Statement (.casQ p i r1 r3) := by
  cases p <;> cases i <;> revert r1 r3 <;> unfold Statement <;> decide

theorem casD (p : Bool) (i : Bool) (r1 : BitVec 4) (r3 : BitVec 4) :
    Statement (.casD p i r1 r3) := by
  cases p <;> cases i <;> revert r1 r3 <;> unfold Statement <;> decide

theorem agl (p : Bool) (m : Bool) :
    Statement (.agl p m) := by
  cases p <;> cases m <;> rfl

theorem sgl (p : Bool) (m : Bool) :
    Statement (.sgl p m) := by
  cases p <;> cases m <;> rfl

theorem alcgl (p : Bool) (cci : BitVec 2) :
    Statement (.alcgl p cci) := by
  cases p <;> revert cci <;> unfold Statement <;> decide

theorem slbgl (p : Bool) (cci : BitVec 2) :
    Statement (.slbgl p cci) := by
  cases p <;> revert cci <;> unfold Statement <;> decide

theorem slagl (p : Bool) (m : Bool) :
    Statement (.slagl p m) := by
  cases p <;> cases m <;> rfl

theorem bctgl (p : Bool) :
    Statement (.bctgl p) := by
  cases p <;> rfl

theorem brctgl (p : Bool) :
    Statement (.brctgl p) := by
  cases p <;> rfl

end Sys2Proof.Laws.EncodeRow
end

