-- ==== Sys2Proof/Tests/Slice0.lean ====
section
/-! SUPPORT. The model's own tests. Each expected value stands in spec/ and its place is cited; "95 §2.1" is
section 2.1 of spec/95_test_vectors.md. After them, the witnesses: for each statement with hypotheses a concrete
state and operands that meet all of them. -/

namespace Sys2Proof.Machine

/-- The state with one command outstanding on port `p`, which goes next, and its access granted. -/
def State.issue (s : State) (cw : CmdWord) (ad : Word := 0#64) (a : Wide := 0#128) (b : Wide := 0#128)
    (p : Nat := 0) : State :=
  { s with
    ports := (List.replicate 3 resetPort).set p { resetPort with requests := [⟨cw, ad, a, b⟩] }
    schedule := [p]
    active := p
    verdicts := [.granted] }

/-- The state with the host's next sample. -/
def State.atHost (s : State) (sec nsec : Nat) : State :=
  { s with hostQueue := [⟨BitVec.ofNat 64 sec, BitVec.ofNat 32 nsec, false⟩] }

/-- The state after one step. -/
def State.after (s : State) : State :=
  match step s with
  | .next t => t
  | .fault _ => s
  | .refused _ => s

/-- The response of one step at the port that took it. -/
def State.reply (s : State) : Option Response := s.after.responseOf s.after.active

end Sys2Proof.Machine

namespace Sys2Proof.Tests

open Sys2Proof Sys2Proof.Machine

/-! ### Builders -/

/-- The vectors' configuration (95, head); the interception reason is the test's own. -/
def cfg : Config := { defaultConfig with icptCsReason := 0x00AA#16 }

/-- A fresh reset at host `@1000.0` (95 §2.3). -/
def base : State := State.resetAt cfg ⟨1000#64, 0#32, false⟩

/-- All ones in a word, `M` of 95. -/
def ones : Word := 0xFFFFFFFFFFFFFFFF#64

/-! ### Well-formedness: an ill-formed term for each check -/

theorem test_wellFormed_slot : (Instr.getcpt false 2#8).wellFormed cfg = false := by decide
theorem test_wellFormed_slot_last : (Instr.getcpt false 1#8).wellFormed cfg = true := by decide
theorem test_wellFormed_pair_r1 : (Instr.casD false false 3#4 4#4).wellFormed cfg = false := by decide
theorem test_wellFormed_pair_r3 : (Instr.casQ false false 2#4 5#4).wellFormed cfg = false := by decide
theorem test_wellFormed_pair_even : (Instr.casQ false false 2#4 4#4).wellFormed cfg = true := by decide
theorem test_wellFormed_family5_absent :
    (Instr.agl false false).wellFormed { cfg with hasLong := false } = false := by decide

/-! ### Decoding: a word for every constructor, from 30_encoding.md R102, R103, R110 to R115 -/

/-- `OPC` in bits 31 to 24, everything else 0 (R110), written bit by bit; `P` is bit 11. -/
theorem test_decode_family0 :
    decode true 0b00000001000000000000000000000000#32 = .ok (.eadd false) ∧
    decode true 0b00000001000000000000100000000000#32 = .ok (.eadd true) ∧
    decode true 0x02000000#32 = .ok (.esub false) ∧
    decode true 0x03000000#32 = .ok (.eshf false) ∧
    decode true 0x04000000#32 = .ok (.e2t false) ∧
    decode true 0x05000000#32 = .ok (.t2e false) := by decide

/-- `H2E.F` has `SEL = 1` in bits 15 to 12 (R111). -/
theorem test_decode_family1 :
    decode true 0x10000000#32 = .ok (.h2e false) ∧
    decode true 0b00010000000000000001000000000000#32 = .ok (.h2eF false) ∧
    decode true 0x11000000#32 = .ok (.hclk false) := by decide

/-- `TODCLK cpu=1` has `CPU` in bits 23 to 16 (R112). -/
theorem test_decode_family2 :
    decode true 0x20000800#32 = .ok (.csrrst true) ∧
    decode true 0x21000800#32 = .ok (.setrateF true) ∧
    decode true 0x21001800#32 = .ok (.setrateG true) ∧
    decode true 0x22000000#32 = .ok (.getrateF false) ∧
    decode true 0x22001000#32 = .ok (.getrateG false) ∧
    decode true 0x22002000#32 = .ok (.getrateT false) ∧
    decode true 0x23000000#32 = .ok (.fetch false) ∧
    decode true 0x24000800#32 = .ok (.setclk true) ∧
    decode true 0x25000800#32 = .ok (.adjoff true) ∧
    decode true 0x26000000#32 = .ok (.update false) ∧
    decode true 0x27010000#32 = .ok (.getepo false 1#8) ∧
    decode true 0x28010800#32 = .ok (.setepo true 1#8) ∧
    decode true 0b00101001000000010000000000000000#32 = .ok (.todclk false 1#8) ∧
    decode true 0x2C000000#32 = .ok (.rdcsrSt false) ∧
    decode true 0x2C001000#32 = .ok (.rdcsrBo false) ∧
    decode true 0x2C002000#32 = .ok (.rdcsrTv false) := by decide

/-- `SETCPT cpu=1, p=1` (R113). -/
theorem test_decode_family3 :
    decode true 0x30010000#32 = .ok (.getcpt false 1#8) ∧
    decode true 0b00110001000000010000100000000000#32 = .ok (.setcpt true 1#8) ∧
    decode true 0x32010000#32 = .ok (.cptpnd false 1#8) ∧
    decode true 0x33000000#32 = .ok (.getit false 0#8) ∧
    decode true 0x34000000#32 = .ok (.setit false 0#8) ∧
    decode true 0x35000000#32 = .ok (.it2e false) ∧
    decode true 0x36000000#32 = .ok (.e2it false) := by decide

/-- `CAS.Q r1=2, r3=4, i=1`: `SEL = 4`, `I` bit 10, `R1` bits 7 to 4, `R3` bits 3 to 0 (R114). -/
theorem test_decode_family4 :
    decode true 0x40000000#32 = .ok (.lockR false) ∧
    decode true 0x40001000#32 = .ok (.lockP false) ∧
    decode true 0x40002000#32 = .ok (.lockS false) ∧
    decode true 0x41000000#32 = .ok (.trylockR false) ∧
    decode true 0x41001000#32 = .ok (.trylockP false) ∧
    decode true 0x41002000#32 = .ok (.trylockS false) ∧
    decode true 0x42000000#32 = .ok (.unlockR false) ∧
    decode true 0x42001000#32 = .ok (.unlockP false) ∧
    decode true 0x42002000#32 = .ok (.unlockS false) ∧
    decode true 0x43000000#32 = .ok (.gacq false) ∧
    decode true 0x44000000#32 = .ok (.grel false) ∧
    decode true 0x45002000#32 = .ok (.casW false false) ∧
    decode true 0x45003400#32 = .ok (.casG false true) ∧
    decode true 0b01000101000000000100010000100100#32 = .ok (.casQ false true 2#4 4#4) ∧
    decode true 0x45005024#32 = .ok (.casD false false 2#4 4#4) := by decide

/-- `ALCGL cc=2`: `CCI` in bits 9 and 8 (R115). -/
theorem test_decode_family5 :
    decode true 0x50000400#32 = .ok (.agl false true) ∧
    decode true 0x51000000#32 = .ok (.sgl false false) ∧
    decode true 0b01010010000000000000001000000000#32 = .ok (.alcgl false 2#2) ∧
    decode true 0x53000100#32 = .ok (.slbgl false 1#2) ∧
    decode true 0x54000400#32 = .ok (.slagl false true) ∧
    decode true 0x55000000#32 = .ok (.bctgl false) ∧
    decode true 0x56000000#32 = .ok (.brctgl false) := by decide

/-- Unassigned and reserved operation codes, and family 5 absent (95 §2.7). -/
theorem test_decode_operation :
    ([0x00000000#32, 0x06000000#32, 0x12000000#32, 0x2A000000#32, 0x2B000800#32, 0x2D000000#32, 0x37000000#32,
      0x46000000#32, 0x57000000#32, 0x60000000#32, 0xFF000000#32].all
        fun w => decode true w == .error .operation) = true ∧
    decode false 0x50000000#32 = .error .operation := by decide

/-- Must-be-zero fields and undefined `SEL` (95 §2.7). -/
theorem test_decode_specification :
    ([0x01000001#32, 0x01000010#32, 0x01000100#32, 0x01000400#32, 0x01001000#32, 0x01010000#32, 0x10002000#32,
      0x21002800#32, 0x22003000#32, 0x30001000#32, 0x40003000#32, 0x43001000#32, 0x45000000#32, 0x45001000#32,
      0x45006000#32, 0x45002010#32, 0x50000200#32, 0x52000400#32, 0x55000400#32].all
        fun w => decode true w == .error .specification) = true := by decide

/-- Privilege is tested before the fields (95 §2.7). -/
theorem test_decode_privilege_first : decode true 0x21002000#32 = .error .privilegedOperation := by decide

/-- The three interrupts as responses: unassigned, `P = 0`, `CPU >= NCPU` (95 §2.7). -/
theorem test_interrupt_responses :
    (base.issue 0x00000000#32).reply = some (pgmOnly 0x0001#16) ∧
    (base.issue 0x31020000#32).reply = some (pgmOnly 0x0002#16) ∧
    (base.issue 0x31020800#32).reply = some (pgmOnly 0x0006#16) ∧
    (base.issue 0x30020000#32).reply = some (pgmOnly 0x0006#16) := by decide

/-- The word placed by `withFetchWord` runs as the first command after reset. -/
theorem test_withFetchWord : (State.withFetchWord base 32 0x22002000).reply = some (doneWord 0#64) := by decide

/-! ### Family 0 (95 §2.1) -/

theorem test_eadd_carry : (base.issue 0x01000000#32 0 (mkEtod 1 ones) (mkEtod 0 1)).reply =
    some (doneWide (mkEtod 2 0)) := by decide
theorem test_eadd_wraps : (base.issue 0x01000000#32 0 (mkEtod ones ones) (mkEtod 0 1)).reply =
    some (doneWide 0#128) := by decide
theorem test_esub_borrow : (base.issue 0x02000000#32 0 (mkEtod 1 0) (mkEtod 0 1)).reply =
    some (doneWide (mkEtod 0 ones)) := by decide
theorem test_esub_wraps : (base.issue 0x02000000#32 0 0 (mkEtod 0 1)).reply =
    some (doneWide (mkEtod ones ones)) := by decide
theorem test_eshf_right_65 :
    (base.issue 0x03000000#32 0 (mkEtod 0x0123456789ABCDEF 0xFEDCBA9876543210) 65).reply =
      some (doneWide (mkEtod 0 0x0091A2B3C4D5E6F7)) := by decide
theorem test_eshf_left_4 :
    (base.issue 0x03000000#32 0 (mkEtod 0x0123456789ABCDEF 0xFEDCBA9876543210) 0xFFFFFFFC).reply =
      some (doneWide (mkEtod 0x123456789ABCDEFF 0xEDCBA98765432100)) := by decide
theorem test_e2t : (base.issue 0x04000000#32 0 (mkEtod 0x0123456789ABCDEF 0xFEDCBA9876543210)).reply =
    some (doneWord 0x23456789ABCDEFFE) := by decide
theorem test_e2t_drops : (base.issue 0x04000000#32 0 (mkEtod 0xFF00000000000000 0x00FFFFFFFFFFFFFF)).reply =
    some (doneWord 0) := by decide
theorem test_t2e : (base.issue 0x05000000#32 0 0x23456789ABCDEFFE).reply =
    some (doneWide (mkEtod 0x0023456789ABCDEF 0xFE00000000000000)) := by decide
theorem test_t2e_ones : (base.issue 0x05000000#32 0 0xFFFFFFFFFFFFFFFF).reply =
    some (doneWide (mkEtod 0x00FFFFFFFFFFFFFF 0xFF00000000000000)) := by decide

/-! ### Family 1 (95 §2.2) -/

theorem test_h2e : (base.issue 0x10000000#32 0 (mkEtod 1700000000 123456789)).reply =
    some (doneWide (mkEtod 0x00DE33460DCC240C 0x9FBE76C8B4395810)) := by decide
theorem test_h2e_tier0 :
    ({ base with cfg := { cfg with precisionBits := 60 } }.issue 0x10000000#32 0
      (mkEtod 1700000000 123456789)).reply = some (doneWide (mkEtod 0x00DE33460DCC2400 0)) := by decide
theorem test_h2eF : (base.issue 0x10001000#32 0 (mkEtod 0 123456789)).reply =
    some (doneWide (mkEtod 0x007D91048BCA0000 0)) := by decide
/-- With the constant `-1` the zero fields are one microsecond before 0, `-2^68` (41_host_time.md R162). -/
theorem test_h2e_negative_epoch :
    ({ base with cfg := { cfg with epoch1970Us := -1 } }.issue 0x10000000#32).reply =
      some (doneWide (mkEtod 0xFFFFFFFFFFFFFFF0 0)) := by decide
theorem test_hclk : ((base.issue 0x11000000#32).atHost 0 1000).reply =
    some (doneWide (mkEtod 0x007D91048BCA0010 0)) := by decide

/-! ### Family 2 (95 §2.3) -/

/-- The steering state after step 2 of the chain. -/
def steered : State := { base with csr := ⟨0x007D910BFF234000, 0, 0x010C6F7A, 0⟩ }

/-- The steering state after step 9 of the chain. -/
def jumped : State := { base with csr := ⟨0x00DE33460DCC2400, 0x0060A2329A5B7FFC, 0x010C6F7A, 0⟩ }

theorem test_reset_values : base.csr = ⟨0x007D91084576A000, 0, 0, 0⟩ ∧
    base.todValue = mkEtod 0x007D91084576A000 0 ∧
    base.cpus = List.replicate 2 ⟨0, 0x007D91084576A000, true, false, 0x007D91084576A000⟩ := by decide
theorem test_csrrst : ((steered.issue 0x20000800#32).atHost 1000 0).after.csr =
    ⟨0x007D91084576A000, 0, 0, 0⟩ := by decide
theorem test_setrateF : ((base.issue 0x21000800#32 0 0x010C6F7A).atHost 2000 0).after.csr =
    ⟨0x007D910BFF234000, 0, 0x010C6F7A, 0⟩ := by decide
/-- Program P2, line 7. -/
theorem test_setrateG :
    (({ base with csr := ⟨0x007D910FB8D01E7F, 0x3E7F, 0xFEF39086, 0⟩ }.issue 0x21001800#32 0
      0x7FFFFFFF).atHost 4000 0).after.csr =
      ⟨0x007D9113727C7FFF, 0xFFFFFFFFFFFFFFFF, 0xFEF39086, 0x7FFFFFFF⟩ := by decide
theorem test_getrateF : (steered.issue 0x22000000#32).reply = some (doneWord 0x010C6F7A) := by decide
theorem test_getrateG : (steered.issue 0x22001000#32).reply = some (doneWord 0) := by decide
/-- Program P2, line 9. -/
theorem test_getrateT :
    ({ base with csr := ⟨0, 0, 0xFEF39086, 0x7FFFFFFF⟩ }.issue 0x22002000#32).reply =
      some (doneWord 0x000000007EF39085) := by decide
theorem test_fetch : ((steered.issue 0x23000000#32).atHost 3000 0).reply =
    some (doneWide (mkEtod 0x007D910FB8D01E7F 0)) := by decide
theorem test_fetch_negative_elapsed :
    (({ base with csr := ⟨0x007D910BFF234000, 0, 0x7FFFFFFF, 0⟩ }.issue 0x23000000#32).atHost 1999 0).reply =
      some (doneWide (mkEtod 0x007D910BFE2F145E 0)) := by decide
theorem test_setclk :
    ((steered.issue 0x24000800#32 0 (mkEtod 0x00DE33460DCC2400 0)).atHost 4001 250).after.csr =
      ⟨0x00DE33460DCC2400, 0x0060A2329A5B7FFC, 0x010C6F7A, 0⟩ := by decide
theorem test_adjoff :
    ((jumped.issue 0x25000800#32 0 0xFFFFFFFFFFFFFFF0).atHost 4001 250).after.csr =
      ⟨0x00DE33460DCC23F0, 0x0060A2329A5B7FEC, 0x010C6F7A, 0⟩ := by decide
theorem test_update : ((steered.issue 0x26000000#32).atHost 3000 0).after.todValue =
    mkEtod 0x007D910FB8D01E7F 0 := by decide
theorem test_update_latches :
    ((steered.issue 0x26000000#32).atHost 3000 0).after.cpus.map (fun c => (c.cptArmed, c.cptPending)) =
      [(false, true), (false, true)] := by decide
theorem test_getepo :
    ({ base with cpus := [base.slot 0, { base.slot 1 with todEpoch := 0xFFFFFFFFFFFFFFF0 }] }.issue
      0x27010000#32).reply = some (doneWord 0xFFFFFFFFFFFFFFF0) := by decide
theorem test_setepo : (base.issue 0x28010800#32 0 0xFFFFFFFFFFFFFFF0).after.cpus.map Cpu.todEpoch =
    [0, 0xFFFFFFFFFFFFFFF0] := by decide
theorem test_todclk :
    ({ base with
        todValue := mkEtod 0x007D910FB8D01E7F 0
        cpus := [base.slot 0, { base.slot 1 with todEpoch := 0xFFFFFFFFFFFFFFF0 }] }.issue
      0x29010000#32).reply = some (doneWord 0x007D910FB8D01E6F) := by decide
theorem test_todclk_masks :
    ({ base with
        todValue := mkEtod 0xFF00000000000005 0
        cpus := [{ base.slot 0 with todEpoch := 3 }, base.slot 1] }.issue
      0x29000000#32).reply = some (doneWord 8) := by decide
theorem test_rdcsrSt : (jumped.issue 0x2C000000#32).reply = some (doneWord 0x00DE33460DCC2400) := by decide
theorem test_rdcsrBo : (jumped.issue 0x2C001000#32).reply = some (doneWord 0x0060A2329A5B7FFC) := by decide
theorem test_rdcsrTv : (base.issue 0x2C002000#32).reply =
    some (doneWide (mkEtod 0x007D91084576A000 0)) := by decide

/-! ### Family 3 (95 §2.4, program P3) -/

/-- Slot 1 as program P3 leaves it after line 1. -/
def timed : State := { base with cpus := [base.slot 0, ⟨0, 0x007D91084576A001, true, false, 0⟩] }

theorem test_getcpt : ((timed.issue 0x30010000#32).atHost 1000 0).reply = some (doneWord 0x100) := by decide
theorem test_getcpt_crossing :
    ((timed.issue 0x30010000#32).atHost 1000 125).reply = some (doneWord 0xFFFFFFFFFFFFFF00) ∧
    ((timed.issue 0x30010000#32).atHost 1000 125).after.cpus[1]? =
      some ⟨0, 0x007D91084576A001, false, true, 0⟩ := by decide
theorem test_setcpt_negative :
    ((base.issue 0x31000800#32 0 0xFFFFFFFFFFFFFFFF).atHost 1000 0).after.cpus[0]? =
      some ⟨0, 0x007D910845769FFF, false, true, 0x007D91084576A000⟩ := by decide
theorem test_setcpt :
    ((base.issue 0x31010800#32 0 0x100).atHost 1000 0).after.cpus[1]? =
      some ⟨0, 0x007D91084576A001, true, false, 0x007D91084576A000⟩ := by decide
theorem test_cptpnd_fetches_and_resets :
    ((timed.issue 0x32010000#32).atHost 1000 188).reply = some (doneWord 1) ∧
    ((timed.issue 0x32010000#32).atHost 1000 188).after.cpus[1]? =
      some ⟨0, 0x007D91084576A001, false, false, 0⟩ := by decide
theorem test_cptpnd_second :
    (({ base with cpus := [base.slot 0, ⟨0, 0x007D91084576A001, false, false, 0⟩] }.issue
      0x32010000#32).atHost 1000 250).reply = some (doneWord 0) := by decide
theorem test_setit : ((base.issue 0x34000000#32 0 3).atHost 1000 0).after.cpus.map Cpu.itBase =
    [0x007D91084576A271, 0x007D91084576A000] := by decide
theorem test_getit :
    (({ base with cpus := [{ base.slot 0 with itBase := 0x007D91084576A271 }] }.issue
      0x33000000#32).atHost 1000 13000).reply = some (doneWord 2) := by decide
theorem test_getit_negative :
    (({ base with cpus := [{ base.slot 0 with itBase := 0x007D91084576A271 }] }.issue
      0x33000000#32).atHost 1000 52125).reply = some (doneWord ones) := by decide
theorem test_it2e : (base.issue 0x35000000#32 0 0x80000000).reply =
    some (doneWord 0xFFFFFF97D5555556) := by decide
theorem test_e2it : (base.issue 0x36000000#32 0 0xFFFFFFFFFFFFFF2F).reply = some (doneWord ones) := by decide
theorem test_e2it_wraps : (base.issue 0x36000000#32 0 447392426667).reply =
    some (doneWord 0xFFFFFFFF80000000) := by decide

/-! ### Family 4, locks (95 §2.5) -/

/-- The start of each row: the four bytes. -/
def locks : State := { base with mem := [(0x5000, 0x46#8), (0x9000, 0x01#8)] }

/-- The RCP byte locked. -/
def locked : State := { base with mem := [(0x5000, 0xC6#8)] }

theorem test_lockR :
    (locks.issue 0x40000000#32 0x5000).after.mem = [(0x5000, 0xC6#8), (0x9000, 0x01#8)] ∧
    (locks.issue 0x40000000#32 0x5000).after.keyRc = [(5, ⟨true, true⟩)] := by decide
theorem test_lockR_waits :
    (locked.issue 0x40000000#32 0x5000).reply = none ∧
    (locked.issue 0x40000000#32 0x5000).after.heldAt 0 = true := by decide
theorem test_lockP : (locks.issue 0x40001000#32 0x7000 0 0x9000).after.mem =
    [(0x5000, 0x46#8), (0x7001, 0x80#8), (0x9000, 0x01#8)] := by decide
theorem test_lockP_skaip :
    ({ locks with cfg := { cfg with useSkaipAsLock := true } }.issue 0x40001000#32 0x7000 0 0x9000).after.mem =
      [(0x5000, 0x46#8), (0x9000, 0x81#8)] := by decide
theorem test_lockS : (base.issue 0x40002000#32 0x6000).after.mem = [(0x6000, 0x80#8)] := by decide
theorem test_trylockR : (locks.issue 0x41000000#32 0x5000 (p := 1)).after.mem =
    [(0x5000, 0xC6#8), (0x9000, 0x01#8)] := by decide
theorem test_trylockR_busy :
    (locked.issue 0x41000000#32 0x5000).reply = some ⟨.busy, 0, 0, false, false, 0⟩ ∧
    (locked.issue 0x41000000#32 0x5000).after.mem = locked.mem ∧
    (locked.issue 0x41000000#32 0x5000).after.keyRc = [] := by decide
theorem test_trylockP : (base.issue 0x41001000#32 0x7000 0 0x9000).after.mem = [(0x7001, 0x80#8)] := by decide
theorem test_trylockS : (base.issue 0x41002000#32 0x6000).after.mem = [(0x6000, 0x80#8)] := by decide
theorem test_unlockR : (locked.issue 0x42000000#32 0x5000).after.mem = [(0x5000, 0x46#8)] := by decide
theorem test_unlockR_clear :
    (locks.issue 0x42000000#32 0x5000).after.mem = locks.mem ∧
    (locks.issue 0x42000000#32 0x5000).after.keyRc = [(5, ⟨true, true⟩)] := by decide
theorem test_unlockP : ({ base with mem := [(0x7001, 0x80#8)] }.issue 0x42001000#32 0x7000).after.mem = [] := by
  decide
theorem test_unlockS : ({ base with mem := [(0x6000, 0x81#8)] }.issue 0x42002000#32 0x6000).after.mem =
    [(0x6000, 0x01#8)] := by decide
theorem test_lock_access_fault :
    ({ locks.issue 0x40000000#32 0x5000 with verdicts := [.faulted .addressing] }).reply =
      some (pgmOnly 0x0005#16) := by decide
/-- `AccessCheck` as a function (00_scope.md R6): no access to one byte, every other granted; no verdict drawn. -/
def guarded : State :=
  { base with cfg := { cfg with accessCheck := .function [⟨0x5000, 1, .rmw, .faulted .addressing⟩] .granted } }

theorem test_access_function :
    (guarded.issue 0x41000000#32 0x5000).reply = some (pgmOnly 0x0005#16) ∧
    (guarded.issue 0x41000000#32 0x5001).reply = some doneEmpty ∧
    (guarded.issue 0x41000000#32 0x5000).after.verdicts = [.granted] := by decide
theorem test_gacq : (base.issue 0x43000000#32 (p := 1)).after.glock = .held 1 := by decide
theorem test_gacq_waits : ({ base with glock := .held 1 }.issue 0x43000000#32 (p := 1)).reply = none := by decide
theorem test_grel : ({ base with glock := .held 1 }.issue 0x44000000#32 (p := 1)).after.glock = .free := by decide
theorem test_grel_ignored :
    ({ base with glock := .held 1 }.issue 0x44000000#32).after.glock = .held 1 ∧
    ({ base with glock := .held 1 }.issue 0x44000000#32).reply = some doneEmpty := by decide

/-! ### Family 4, compare and swap (95 §2.5) -/

/-- Bytes from an address on. -/
def bytesFrom (a : Nat) : List Byte → Memory
  | [] => []
  | b :: rest => if b = 0 then bytesFrom (a + 1) rest else (a, b) :: bytesFrom (a + 1) rest

def word4 : State := { base with mem := bytesFrom 0x1000 [0x11, 0x22, 0x33, 0x44] }
def word8 : State := { base with mem := [(0x2007, 0x2A#8)] }
def word16 : State := { base with mem := bytesFrom 0x3000 [0, 1, 2, 3, 4, 5, 6, 7, 8, 9, 10, 11, 12, 13, 14, 15] }

theorem test_casW :
    (word4.issue 0x45002000#32 0x1000 0x11223344 0xAABBCCDD).reply =
      some ⟨.done, 0, 0, true, false, 0x11223344⟩ ∧
    (word4.issue 0x45002000#32 0x1000 0x11223344 0xAABBCCDD).after.mem =
      bytesFrom 0x1000 [0xAA, 0xBB, 0xCC, 0xDD] := by decide
theorem test_casW_reversed :
    (word4.issue 0x45002000#32 0x1000 0x44332211 0xAABBCCDD).reply =
      some ⟨.done, 0, 1, true, false, 0x11223344⟩ ∧
    (word4.issue 0x45002000#32 0x1000 0x44332211 0xAABBCCDD).after.keyRc = [(1, ⟨true, false⟩)] := by decide
theorem test_casG_mismatch : (word8.issue 0x45003000#32 0x2000 0x2B 0x63).reply =
    some ⟨.done, 0, 1, true, false, 0x2A⟩ := by decide
theorem test_casG_intercepts : (word8.issue 0x45003400#32 0x2000 0x2B 0x63).reply =
    some ⟨.icpt, 0x00AA, 1, true, false, 0x2A⟩ := by decide
theorem test_casD : (word8.issue 0x45005024#32 0x2000 0x2A 0x63).after.mem = [(0x2007, 0x63#8)] := by decide
theorem test_casD_odd_pair : (word8.issue 0x45005034#32 0x2000).reply = some (pgmOnly 0x0006#16) := by decide
theorem test_casQ :
    (word16.issue 0x45004024#32 0x3000 (mkEtod 0x0001020304050607 0x08090A0B0C0D0E0F) (mkEtod 1 2)).after.mem =
      [(0x3007, 1#8), (0x300F, 2#8)] := by decide
theorem test_casQ_one_bit :
    (word16.issue 0x45004024#32 0x3000 (mkEtod 0x0001020304050607 0x08090A0B0C0D0E0E) (mkEtod 1 2)).reply =
      some ⟨.done, 0, 1, true, false, mkEtod 0x0001020304050607 0x08090A0B0C0D0E0F⟩ := by decide
theorem test_cas_misaligned :
    (word4.issue 0x45002000#32 0x1002).reply = some (pgmOnly 0x0006#16) ∧
    (word16.issue 0x45004024#32 0x3008).reply = some (pgmOnly 0x0006#16) := by decide
/-- The first `Serialize` was performed, the second was not. -/
theorem test_cas_access_fault :
    ({ word4.issue 0x45002000#32 0x1000 with verdicts := [.faulted .pageTranslation] }).reply =
      some (pgmOnly 0x0011#16) ∧
    ({ word4.issue 0x45002000#32 0x1000 with verdicts := [.faulted .pageTranslation] }).after.history =
      .ser 0 :: base.history := by decide

/-! ### Family 5 (95 §2.6) -/

/-- A response of family 5. -/
def longReply (r : Word) (cc : BitVec 2) : Option Response :=
  some ⟨.done, 0, cc, true, false, wideOfWord r⟩

theorem test_agl : (base.issue 0x50000000#32 0 5 0xFFFFFFFFFFFFFFF9).reply =
    longReply 0xFFFFFFFFFFFFFFFE 1 := by decide
theorem test_agl_overflow_interrupts :
    (base.issue 0x50000400#32 0 0x8000000000000000 0x8000000000000000).reply =
      some ⟨.pgm, 0x0008, 3, true, false, 0⟩ := by decide
theorem test_sgl : (base.issue 0x51000000#32 0 0xFFFFFFFFFFFFFFFF 0x8000000000000000).reply =
    longReply 0x7FFFFFFFFFFFFFFF 2 := by decide
theorem test_sgl_overflow : (base.issue 0x51000000#32 0 0 0x8000000000000000).reply =
    longReply 0x8000000000000000 3 := by decide
theorem test_alcgl_adjustment_carry : (base.issue 0x52000200#32 0 0xFFFFFFFFFFFFFFFF 0).reply =
    longReply 0 2 := by decide
theorem test_alcgl_cci_low_bit_ignored : (base.issue 0x52000100#32 0 0 0).reply = longReply 0 0 := by decide
theorem test_slbgl_double_borrow : (base.issue 0x53000000#32 0 0 0xFFFFFFFFFFFFFFFF).reply =
    longReply 0 0 := by decide
theorem test_slbgl : (base.issue 0x53000100#32 0 0x8000000000000000 1).reply =
    longReply 0x7FFFFFFFFFFFFFFE 3 := by decide
theorem test_slagl : (base.issue 0x54000000#32 0 0xBFFFFFFFFFFFFFFF 1).reply =
    longReply 0xFFFFFFFFFFFFFFFE 3 := by decide
theorem test_slagl_amount_mod_64 : (base.issue 0x54000000#32 0 2 65).reply = longReply 4 2 := by decide
theorem test_bctgl_taken : (base.issue 0x55000000#32 0 (mkEtod 0x1004 2) 0x2000).reply =
    some ⟨.done, 0, 0, false, true, mkEtod 0x2000 1⟩ := by decide
theorem test_bctgl_not_taken : (base.issue 0x55000000#32 0 (mkEtod 0x1004 1) 0x2000).reply =
    some ⟨.done, 0, 0, false, false, mkEtod 0x1004 0⟩ := by decide
theorem test_brctgl_taken : (base.issue 0x56000000#32 0x1000 (mkEtod 0x1004 5) 0xFFFFFFFFFFFFFFF0).reply =
    some ⟨.done, 0, 0, false, true, mkEtod 0x0FF0 4⟩ := by decide
theorem test_brctgl_wraps : (base.issue 0x56000000#32 0 (mkEtod 4 5) 0xFFFFFFFFFFFFFFF0).reply =
    some ⟨.done, 0, 0, false, true, mkEtod 0xFFFFFFFFFFFFFFF0 4⟩ := by decide

/-! ### Witnesses

For each statement with hypotheses, a concrete state and operands that meet all of them together; for a statement
of several clauses, one for each clause, at a boundary of its range. `base` is live (`0 < 3` ports), so it also
meets the hypothesis `live` of every statement about one command. -/

theorem witness_live : base.live ∧ base.wf = true ∧ base.cfg.hasLong = true := by decide

theorem witness_DecodeInvertsEncode :
    (Instr.casQ true true 14#4 14#4).wellFormed cfg = true ∧ (Instr.setcpt false 1#8).wellFormed cfg = true := by
  decide

theorem witness_EncodeInvertsDecode :
    decode true 0x5600F800#32 = .error .specification ∧ decode true 0x56000800#32 = .ok (.brctgl true) ∧
    decode false 0x450054EE#32 = .ok (.casD false true 14#4 14#4) := by decide

/-- Each case of decode by its first word, the neighbouring conditions of the same word beside it. -/
theorem witness_DecodeProceedsInOrder :
    (base.issue 0x57000000#32).wf = true ∧ 0x57 ∉ opcodeNumbers true ∧
    (base.issue 0x20000001#32).wf = true ∧ 0x20 ∈ opcodeNumbers true ∧ 0x20000001 / 2 ^ 11 % 2 = 0 ∧
    (base.issue 0x31020800#32).wf = true ∧ 0x31020800 / 2 ^ 11 % 2 = 1 ∧ base.cfg.ncpu ≤ 0x31020800 / 2 ^ 16 % 256 ∧
    (base.issue 0x45004011#32 1).wf = true ∧ 0x45004011 / 16 % 2 = 1 ∧
    (base.issue 0x45004022#32 8).wf = true ∧ 0x45004022 / 16 % 2 = 0 ∧ 0x45004022 % 2 = 0 ∧
    (8#64).toNat % 16 ≠ 0 ∧
    (base.issue 0x45004022#32 16).wf = true ∧ (16#64).toNat % 16 = 0 := by decide

/-- Clause `badFields` of `DecodeProceedsInOrder` for a word no row matches. -/
theorem witness_DecodeProceedsInOrder_fields :
    ∀ i : Instr, 0x01000001#32 &&& (opcodeRow i).1 ≠ (opcodeRow i).2 := by
  intro i; cases i <;> simp only [opcodeRow, ne_eq] <;> decide

theorem witness_StepRunsTheDecodedCommand :
    (base.issue 0x01000000#32 (p := 2)).requestsOf (base.issue 0x01000000#32 (p := 2)).nextPort =
      [⟨0x01000000#32, 0, 0, 0⟩] ∧
    decode true 0x01000000#32 = .ok (.eadd false) ∧
    ({ base with schedule := [1] }).requestsOf ({ base with schedule := [1] }).nextPort = [] := by decide

/-- An ending of each kind, with the fields it uses, and a wait: a branch taken, a sum, an overflow, `BUSY`,
`ICPT`. -/
theorem witness_EveryCommandEndsOrWaits :
    ([base.issue 0x55000000#32 0 (mkEtod 0 2), base.issue 0x50000000#32,
      base.issue 0x50000400#32 0 0x7FFFFFFFFFFFFFFF 1, locked.issue 0x41000000#32 0x5000,
      word8.issue 0x45003400#32 0x2000, locked.issue 0x40000000#32 0x5000].map
        fun s => s.reply.map fun r => (r.st, r.ccv, r.tk)) =
      [some (.done, false, true), some (.done, true, false), some (.pgm, true, false), some (.busy, false, false),
        some (.icpt, true, false), none] := by decide

theorem witness_EveryStepKeepsTheInvariant :
    (locked.issue 0x40000000#32 0x5000 (p := 2)).wf = true ∧
      ∃ t, step (locked.issue 0x40000000#32 0x5000 (p := 2)) = .next t := ⟨by decide, _, rfl⟩

theorem witness_ResetMeetsTheInvariant :
    cfg.legal = true ∧ ({ cfg with ncpu := 256, keyShift := 63, precisionBits := 60 } : Config).legal = true := by
  decide

/-- A command that moves each of the three fields. -/
theorem witness_OnlyTheirCommandsWriteTheClock :
    (∃ t, exec (.csrrst true) (steered.atHost 1000 0) = .next t ∧
      t.csr.startTime ≠ steered.csr.startTime ∧ t.csr.fineRate ≠ steered.csr.fineRate) ∧
    (∃ t, exec (.setrateG true) (base.issue 0#32 0 5) = .next t ∧ t.csr.grossRate ≠ base.csr.grossRate) ∧
    (∃ t, exec (.update false) (base.atHost 2000 0) = .next t ∧ t.todValue ≠ base.todValue) :=
  ⟨⟨_, rfl, by decide⟩, ⟨_, rfl, by decide⟩, ⟨_, rfl, by decide⟩⟩

/-- A command that moves each element of the last slot. -/
theorem witness_OnlyTheirCommandsWriteASlot :
    (∃ t, exec (.setepo true 1#8) (base.issue 0#32 0 5) = .next t ∧
      t.cpus.map Cpu.todEpoch ≠ base.cpus.map Cpu.todEpoch) ∧
    (∃ t, exec (.setcpt true 1#8) ((base.issue 0#32 0 0x100).atHost 1000 0) = .next t ∧
      t.cpus.map Cpu.cptBase ≠ base.cpus.map Cpu.cptBase) ∧
    (∃ t, exec (.setit false 1#8) ((base.issue 0#32 0 3).atHost 1000 0) = .next t ∧
      t.cpus.map Cpu.itBase ≠ base.cpus.map Cpu.itBase) ∧
    (∃ t, exec (.getcpt false 1#8) (base.atHost 1001 0) = .next t ∧
      t.cpus.map Cpu.cptPending = [false, true] ∧ t.cpus.map Cpu.cptArmed = [true, false]) ∧
    (∃ t, exec (.cptpnd false 1#8)
        ({ base with cpus := [base.slot 0, { base.slot 1 with cptPending := true }] }.atHost 999 0) = .next t ∧
      t.cpus.map Cpu.cptPending = [false, false]) :=
  ⟨⟨_, rfl, by decide⟩, ⟨_, rfl, by decide⟩, ⟨_, rfl, by decide⟩, ⟨_, rfl, by decide⟩, ⟨_, rfl, by decide⟩⟩

theorem witness_OnlyTheirCommandsWriteTheSharedState :
    (∃ t, exec (.gacq false) base = .next t ∧ t.glock ≠ base.glock) ∧
    (∃ t, exec (.grel false) { base with glock := .held 0 } = .next t ∧ t.glock ≠ .held 0) ∧
    (Instr.grel false).reachesMemory = false := ⟨⟨_, rfl, by decide⟩, ⟨_, rfl, by decide⟩, rfl⟩

/-- A mismatch on a frame both of whose flags are set. -/
theorem witness_KeyFlagsAreNeverCleared :
    ∃ t, exec (.casW false false) { base with keyRc := [(0, ⟨true, true⟩)], verdicts := [.granted] } = .next t ∧
      ({ base with keyRc := [(0, ⟨true, true⟩)] } : State).keyFlags 0 = ⟨true, true⟩ := ⟨_, rfl, by decide⟩

theorem witness_PrivilegedCommandsNeedSupervisorState :
    (Instr.setcpt false 255#8).isPrivileged = true ∧ (Instr.setcpt false 255#8).pBit = false ∧
    (Instr.getcpt true 0#8).isPrivileged = false ∧ base.live := by decide

/-- A suppressing interrupt, an access fault of a compare and swap, and an overflow. -/
theorem witness_InterruptsChangeNothing :
    (∃ t, runCommand (base.issue 0x00000000#32) = .next t ∧
      Answered (base.issue 0x00000000#32) t (pgmOnly 0x0001#16)) ∧
    (∃ t r, runCommand (base.issue 0x50000400#32 0 0x7FFFFFFFFFFFFFFF 1) = .next t ∧
      Answered (base.issue 0x50000400#32 0 0x7FFFFFFFFFFFFFFF 1) t r ∧ r.st = .pgm ∧ r.pic = 0x0008#16) ∧
    (∃ t r, runCommand { base.issue 0x45002000#32 with verdicts := [.faulted .protection] } = .next t ∧
      Answered { base.issue 0x45002000#32 with verdicts := [.faulted .protection] } t r ∧ r.st = .pgm ∧
      r.pic = 0x0004#16) :=
  ⟨⟨_, rfl, answered_of_ports rfl (by decide)⟩,
    ⟨_, _, rfl, answered_of_ports rfl (by decide), by decide, by decide⟩,
    ⟨_, _, rfl, answered_of_ports rfl (by decide), by decide, by decide⟩⟩

/-- Each cause of a code: operation; privilege; the four of specification; overflow of each form, by one; the access
of a lock at its site and of a compare and swap. -/
theorem witness_InterruptCodesHaveTheirCauses :
    ([base.issue 0x00000000#32, base.issue 0x20000000#32, base.issue 0x01000001#32, base.issue 0x30020000#32,
      base.issue 0x45004012#32, base.issue 0x45002000#32 0x1002,
      base.issue 0x50000400#32 0 0x7FFFFFFFFFFFFFFF 1, base.issue 0x51000400#32 0 0x8000000000000000 1,
      base.issue 0x54000400#32 0 0x4000000000000000 1,
      { base.issue 0x42001000#32 with verdicts := [.faulted .segmentTranslation] },
      { base.issue 0x45003000#32 8 with verdicts := [.faulted .protection] }].map
        fun s => (s.wf, s.reply.map fun r => (r.st, r.pic))) =
      [0x0001#16, 0x0002#16, 0x0006#16, 0x0006#16, 0x0006#16, 0x0006#16, 0x0008#16, 0x0008#16, 0x0008#16,
        0x0010#16, 0x0004#16].map fun code => (true, some (.pgm, code)) := by decide

theorem witness_ConditionCodeComesFromItsCommands :
    (∃ t r, exec (.alcgl false 3#2) base = .next t ∧ Answered base t r ∧ r.ccv = true ∧ r.st ≠ .pgm) ∧
    (∃ t r, exec (.bctgl false) base = .next t ∧ Answered base t r ∧ r.ccv = false) ∧
    (∃ t r, exec (.agl false true) (base.issue 0#32 0 0x7FFFFFFFFFFFFFFF 1) = .next t ∧
      Answered (base.issue 0#32 0 0x7FFFFFFFFFFFFFFF 1) t r ∧ r.st = .pgm ∧ r.pic = 0x0008#16) :=
  ⟨⟨_, _, rfl, answered_of_ports rfl (by decide), by decide, by decide⟩,
    ⟨_, _, rfl, answered_of_ports rfl (by decide), by decide⟩,
    ⟨_, _, rfl, answered_of_ports rfl (by decide), by decide, by decide⟩⟩

/-- The shift amounts at both ends and around 0. -/
theorem witness_EtodShiftResult :
    ([0#32, 0xFFFFFFFF#32, 0x7FFFFFFF#32, 0x80000000#32].map BitVec.toInt) =
      [0, -1, 2147483647, -2147483648] := by decide

/-- Two amounts that undo each other, the answer of the first shift on the bus of the second. -/
theorem witness_EtodShiftRoundTrip :
    let s := base.issue 0x03000000#32 0 0xFF 4
    let u := base.issue 0x03000000#32 0 0xF 0xFFFFFFFC (p := 1)
    s.live ∧ u.live ∧
    (u.request.b.extractLsb' 0 32).toInt = -(s.request.b.extractLsb' 0 32).toInt ∧
    (s.reply.map fun r => r.r) = some u.request.a := by decide

theorem witness_TodToEtodAndBack :
    let s := base.issue 0x05000000#32 0 0x1FF
    let u := base.issue 0x04000000#32 0 (mkEtod 1 0xFF00000000000000)
    let v := base.issue 0x04000000#32 0 0x100000000000000
    let w := base.issue 0x05000000#32 0 1
    s.live ∧ u.live ∧ s.reply = some (doneWide u.request.a) ∧ v.reply = some (doneWide w.request.a) := by decide

/-- The coarsest and the finest precision. -/
theorem witness_PrecisionTiersAgree :
    let s : State := { base with cfg := { cfg with precisionBits := 60 } }
    let u : State := { base with cfg := { cfg with precisionBits := 128 } }
    s.live ∧ u.live ∧ u.request.a = s.request.a ∧ u.cfg.epoch1970Us = s.cfg.epoch1970Us ∧
    s.cfg.precisionBits ≤ u.cfg.precisionBits ∧ u.cfg.precisionBits ≤ 128 ∧ 60 ≤ s.cfg.precisionBits := by decide

theorem witness_HostClockSamples :
    (base.atHost 5 999).hostQueue = [⟨5, 999, false⟩] ∧ base.cfg.hostRes = .ns ∧
    ({ cfg with hostRes := .us } : Config).hostRes = .us := by decide

/-- The three writers, the fetch before and the fetch after at one host instant. -/
theorem witness_SteeringIsContinuous :
    let s := (steered.issue 0#32 0 0x80000000).atHost 3000 0
    (∃ t, exec (.setrateF true) s = .next t ∧ ({ s with csr := t.csr } : State).hostSample = s.hostSample) ∧
    (∃ t, exec (.setrateG true) s = .next t ∧ ({ s with csr := t.csr } : State).hostSample = s.hostSample) ∧
    (∃ t, exec (.adjoff true) s = .next t ∧ ({ s with csr := t.csr } : State).hostSample = s.hostSample) ∧
    s.live := ⟨⟨_, rfl, rfl⟩, ⟨_, rfl, rfl⟩, ⟨_, rfl, rfl⟩, by decide⟩

/-- The same instant, and a later one. -/
theorem witness_SetClockIsExact :
    let s := (steered.issue 0#32 0 (mkEtod ones 0)).atHost 3000 0
    ∃ t, exec (.setclk true) s = .next t ∧ s.live ∧
      ({ s with csr := t.csr } : State).hostSample = s.hostSample ∧
      (({ s with csr := t.csr } : State).atHost 3001 0).cfg = s.cfg := ⟨_, rfl, by decide, rfl, rfl⟩

/-- The last slot, the first number that names none, and a slot for the clause that reads one. -/
theorem witness_EpochCommands :
    base.cpus[(1#8).toNat]? = some (resetCpu base.todValue) ∧ base.cpus.length ≤ (2#8).toNat ∧
    base.cpus.length ≤ (255#8).toNat := by decide

theorem witness_SteeringNeverTurnsTheClockBack :
    let s := ({ base with csr := ⟨0x007D91084576A000, 0, 0x80000000, 0x80000000⟩ } : State).atHost 999 0
    let u := ({ base with csr := ⟨0x007D91084576A000, 0, 0x80000000, 0x80000000⟩ } : State).atHost 1001 0
    s.live ∧ u.live ∧ u.csr = s.csr ∧ u.cfg = s.cfg ∧ s.cfg.rateFracBits = 44 ∧
    elapsedAt s.csr (s.hostNow / 2 ^ 64) < 0 ∧ 0 < elapsedAt s.csr (u.hostNow / 2 ^ 64) ∧
    -2 ^ 62 ≤ elapsedAt s.csr (s.hostNow / 2 ^ 64) ∧ elapsedAt s.csr (u.hostNow / 2 ^ 64) ≤ 2 ^ 62 := by decide

/-- The last slot and the first number that names none (also for the other commands on a timer slot). -/
theorem witness_CpuTimerIsRead :
    base.cpus[(1#8).toNat]? = some (resetCpu base.todValue) ∧ base.cpus.length ≤ (2#8).toNat := by decide

/-- Readings at the boundary of the sign: 0, and the first negative one. -/
theorem witness_timerSampled :
    timerSampled 8 7 ⟨0, 7, false, false, 0⟩ = ⟨0, 7, true, false, 0⟩ ∧
    timerSampled 8 8 ⟨0, 7, true, false, 0⟩ = ⟨0, 7, false, true, 0⟩ ∧
    timerSampled 8 8 ⟨0, 7, false, false, 0⟩ = ⟨0, 7, false, false, 0⟩ := by decide

theorem witness_CpuTimerReadsBack :
    let s := (base.issue 0#32 0 0xFFFFFFFFFFFFFF80).atHost 3000 0
    ∃ t, exec (.setcpt true 1#8) s = .next t ∧ s.live ∧ (1#8).toNat < s.cpus.length ∧
      ({ s with cpus := t.cpus } : State).hostSample = s.hostSample := ⟨_, rfl, by decide, by decide, rfl⟩

/-- Two negative readings of an armed and of a disarmed slot, and a reading of 0 for the last clause. -/
theorem witness_ACrossingIsLatchedOnce :
    (∀ n ∈ [8#64, 9#64], 2 ^ 63 ≤ timerReading 8 7#64 n.toNat) ∧ timerReading 8 7#64 (7#64).toNat < 2 ^ 63 := by
  simp [timerReading]

/-- A slot, and distances at the two ends of the stated range. -/
theorem witness_IntervalTimerIsSetAndRead :
    base.cpus[(0#8).toNat]? = some (resetCpu base.todValue) ∧ base.cpus.length ≤ (2#8).toNat ∧
    (3074457345618258602 : Int).natAbs ≤ (2 ^ 63 - 1) / 3 ∧
    ¬ (-3074457345618258603 : Int).natAbs ≤ (2 ^ 63 - 1) / 3 := by decide

theorem witness_TicksRoundTrip :
    let s := base.issue 0x35000000#32 0 0xFFFFFFFF
    let u := base.issue 0x36000000#32 0 0xFFFFFFFFFFFFFF30
    s.live ∧ u.live ∧ (s.reply.map fun r => r.r) = some u.request.a := by decide

/-- Each of the four commands, before and after it at one host instant; slot 1's distances inside the range, and
one outside it. -/
theorem witness_AClockJumpMovesTheTimers :
    let s := (base.issue 0#32 0 (mkEtod 0x007D910FB8D01E80 1)).atHost 3000 0
    s.live ∧ s.cpus[(1#8).toNat]? = some (resetCpu base.todValue) ∧
    (∃ t, exec (.adjoff true) s = .next t ∧
      ({ s with csr := t.csr, cpus := t.cpus } : State).hostSample = s.hostSample) ∧
    (∃ t, exec (.setclk true) s = .next t ∧
      ({ s with csr := t.csr, cpus := t.cpus } : State).hostSample = s.hostSample) ∧
    (∃ t, exec (.csrrst true) s = .next t ∧
      ({ s with csr := t.csr, cpus := t.cpus } : State).hostSample = s.hostSample) ∧
    (∃ t, exec (.setepo true 1#8) s = .next t ∧
      ({ s with csr := t.csr, cpus := t.cpus } : State).hostSample = s.hostSample) ∧
    ((resetCpu base.todValue).itBase - BitVec.ofNat 64 s.steeredNow).toInt.natAbs ≤ (2 ^ 63 - 1) / 3 ∧
    ((resetCpu base.todValue).itBase - BitVec.ofNat 64 s.steeredNow - 1#64).toInt.natAbs ≤ (2 ^ 63 - 1) / 3 ∧
    ¬ ((resetCpu base.todValue).itBase - BitVec.ofNat 64 s.steeredNow - 0x8000000000000000#64).toInt.natAbs ≤
      (2 ^ 63 - 1) / 3 :=
  ⟨by decide, by decide, ⟨_, rfl, rfl⟩, ⟨_, rfl, rfl⟩, ⟨_, rfl, rfl⟩, ⟨_, rfl, rfl⟩, by decide, by decide, by decide⟩

/-- A granted access on a clear and on a set lock byte of each kind, and a command already held. -/
theorem witness_LockAcquiresOrWaits :
    ([LockKind.rcp, .pgste, .sca].all fun k =>
      let s := locks.issue 0x40000000#32 0x5000 0 0x9000
      let u : State :=
        { s with mem := [(0x5000, 0x80#8), (0x5001, 0x80#8)] }
      let a := (lockSite cfg k 0x5000 0x9000).1
      let mask := (lockSite cfg k 0x5000 0x9000).2
      Memory.wf s.mem && Memory.wf u.mem && (s.verdictFor a 1 == .granted) &&
        (s.byteAt a &&& mask == 0#8) && (u.byteAt a &&& mask != 0#8)) = true ∧
    (locked.issue 0x40000000#32 0x5000).after.heldAt 0 = true := by decide

/-- The four cases: free, held by another, held by the port itself. -/
theorem witness_CoarseLockIsTakenAndFreed :
    base.glock = .free ∧ base.active = 0 ∧
    ({ base with glock := .held 0 } : State).glock = .held base.active ∧
    ({ base with glock := .held 1 } : State).glock ≠ .held base.active := by decide

/-- Port 1 holds the RCP lock at `0x5000`. -/
def heldByOne : State :=
  { locked with history := .rmw 1 0x5000 1 0x46 0xC6 true :: locked.history }

/-- An unlock by the holder, and a lock by another port that must wait. -/
theorem witness_LocksExcludeEachOther :
    LockExclusive 0x5000 0x80#8 heldByOne ∧
    (heldByOne.issue 0x42000000#32 0x5000 (p := 1)).wf = true ∧
    LockExclusive 0x5000 0x80#8 (heldByOne.issue 0x42000000#32 0x5000 (p := 1)) ∧
    unlockOnlyByHolder (.unlockR false) (heldByOne.issue 0x42000000#32 0x5000 (p := 1)) ∧
    lockByteOnlyViaLock 0x5000 (.unlockR false) (heldByOne.issue 0x42000000#32 0x5000 (p := 1)) ∧
    isOneBitMask 0x80#8 = true ∧
    (heldByOne.issue 0x40000000#32 0x5000).wf = true ∧
    unlockOnlyByHolder (.lockR false) (heldByOne.issue 0x40000000#32 0x5000) ∧
    lockByteOnlyViaLock 0x5000 (.lockR false) (heldByOne.issue 0x40000000#32 0x5000) := by
  refine ⟨⟨fun p _ => by decide, ?_⟩, by decide, ⟨fun p _ => by decide, ?_⟩, ?_, ?_, by decide, by decide, ?_, ?_⟩
  · intro p q; simp +contextual [heldByOne, holdsLock, locked, base, State.resetAt]
  · intro p q; simp +contextual [heldByOne, holdsLock, locked, base, State.resetAt, State.issue]
  · intro k hk
    have : k = .rcp := by simpa [Instr.unlockKind] using hk.symm
    subst this; decide
  · intro n hn; simp [Instr.casWidth] at hn
  · intro k hk; simp [Instr.unlockKind] at hk
  · intro n hn; simp [Instr.casWidth] at hn

/-- Equal operands of each width. -/
theorem witness_CompareAndSwapSwapsOrReloads_equal :
    let s := base.issue 0x45002000#32 0xFFFFFFFFFFFFFFF0
    ([(Instr.casW false true, 4), (.casG false false, 8), (.casQ false true 14#4 2#4, 16),
      (.casD false false 14#4 2#4, 8)].all fun e =>
        (e.1.casWidth == some e.2) && e.1.pairEven && (s.request.ad.toNat % e.2 == 0) &&
        (s.verdictFor s.request.ad e.2 == .granted)) = true ∧
    s.live ∧ Memory.wf s.mem = true ∧
    ∀ j < 16, s.byteAt (s.request.ad + BitVec.ofNat 64 j) = operandByte 16 s.request.a j := by decide

/-- Operands that differ in the last byte only, with and without interception. -/
theorem witness_CompareAndSwapSwapsOrReloads_unequal :
    let s := word8.issue 0x45003400#32 0x2000 0x2B
    (Instr.casG false true).casWidth = some 8 ∧ (Instr.casG false true).interceptBit = true ∧
    (Instr.casG false false).interceptBit = false ∧ (Instr.casG false true).pairEven = true ∧ s.live ∧
    s.request.ad.toNat % 8 = 0 ∧ s.verdictFor s.request.ad 8 = .granted ∧
    ∃ j < 8, s.byteAt (s.request.ad + BitVec.ofNat 64 j) ≠ operandByte 8 s.request.a j := by decide

/-- The faulting access of `LOCK`, `TRYLOCK`, `UNLOCK` (a site of each kind) and of a compare and swap. -/
theorem witness_access_faults :
    let s : State := { locks.issue 0x41001000#32 0x5000 with verdicts := [.faulted .translationSpecification] }
    s.live ∧ s.heldAt s.active = false ∧ Memory.wf s.mem = true ∧
    (lockSite s.cfg .pgste s.request.ad 0).1 = 0x5001#64 ∧
    s.verdictFor 0x5001 1 = .faulted .translationSpecification ∧
    (Instr.casQ false false 0#4 2#4).casWidth = some 16 ∧ (Instr.casQ false false 0#4 2#4).pairEven = true ∧
    s.request.ad.toNat % 16 = 0 ∧ s.verdictFor s.request.ad 16 = .faulted .translationSpecification := by decide

/-- `OnlyForms`: the first undefined form, and a defined form with a field that must be zero. -/
theorem witness_OnlyForms :
    ([0x40003000#32, 0x40002400#32].all fun w =>
      (w.toNat / 2 ^ 24 == 0x40) && !w.getLsbD 11 &&
        [0, 1, 2].all fun n => w != commandWord 0x40 n false) = true := by decide

/-- The empty store, and one whose operand wraps around the top of memory. -/
theorem witness_MemoryReadsBackBigEndian :
    Memory.wf [] = true ∧ Memory.wf [(0, 1#8), (0xFFFFFFFFFFFFFFFF, 2#8)] = true ∧
    16 ∈ [1, 4, 8, 16] := by decide

/-- A count of 1, which is not taken, and a count of 0, which wraps and is. -/
theorem witness_BranchOnCount :
    (1 % 2 ^ 64 + (2 ^ 64 - 1)) % 2 ^ 64 = 0 ∧ (0 % 2 ^ 64 + (2 ^ 64 - 1)) % 2 ^ 64 ≠ 0 := by decide

end Sys2Proof.Tests
end

section
/-! Proofs about the scope of the block (spec/00_scope.md): which command a step runs. -/

namespace Sys2Proof.Machine

/-! ### The port that goes next -/

theorem hasTurn_eq_true_iff (s : State) : s.hasTurn = true ↔ s.requestsOf s.nextPort ≠ [] := by
  simp [State.hasTurn, State.requestsOf]

theorem hasTurn_eq_false_iff (s : State) : s.hasTurn = false ↔ s.requestsOf s.nextPort = [] := by
  simp [State.hasTurn, State.requestsOf]

/-- The record the claim writes out is the model's own selection of the named port. -/
theorem select_eq (s : State) :
    s.select = { s with
      active := s.nextPort, schedule := s.schedule.tail,
      draws := if s.schedule = [] then s.draws + 1 else s.draws } := by
  simp only [State.select, State.turnTaken, List.isEmpty_iff]

/-- Selecting a port makes the head of its list the request of the step. -/
theorem request_select {s : State} {r : Request} {rest : List Request}
    (h : s.requestsOf s.nextPort = r :: rest) : s.select.request = r := by
  have hp : s.select.portAt s.nextPort = s.portAt s.nextPort := portAt_of_ports (select_ports s) _
  have hr : (s.portAt s.nextPort).requests = r :: rest := h
  rw [State.request, select_active, hp, Port.outstanding, hr, List.headD_cons]

/-! ### The step -/

theorem step_of_hasTurn {s : State} (h : s.hasTurn = true) : step s = runCommand s.select := by
  simpa [h] using step_cases s

theorem step_of_no_turn {s : State} (h : s.hasTurn = false) : step s = .next s.turnTaken := by
  simpa [h] using step_cases s

theorem runCommand_of_decode {s : State} {i : Instr} (h : decode s.cfg.hasLong s.request.cw = .ok i) :
    runCommand s = exec i s := by
  simpa [h] using runCommand_cases s

theorem blockKept_turnTaken (s : State) : BlockKept s s.turnTaken :=
  blockKept_of_eq (turnTaken_csr s) (turnTaken_todValue s) (turnTaken_cpus s) (turnTaken_glock s)
    (turnTaken_mem s) (turnTaken_keyRc s) (turnTaken_cfg s)

theorem noHostDraw_turnTaken (s : State) : NoHostDraw s s.turnTaken :=
  ⟨turnTaken_hostQueue s, turnTaken_history s⟩

/-- Settles O5: the named port has a request, and the step runs it from the selected state, or it has none, and
the step only uses up the turn. -/
theorem stepRunsTheDecodedCommand : Obligations.StepRunsTheDecodedCommand := by
  intro s
  rw [← select_eq s]
  refine ⟨fun r rest hreq => ?running, fun hnone => ?idle⟩
  case running =>
    have hturn : s.hasTurn = true := (hasTurn_eq_true_iff s).2 (by simp [hreq])
    have hrun : step s = runCommand s.select := step_of_hasTurn hturn
    refine ⟨request_select hreq, hrun, fun i hdec => ?_⟩
    have hsel : decode s.select.cfg.hasLong s.select.request.cw = .ok i := by
      rw [select_cfg, request_select hreq, hdec]
    rw [hrun, runCommand_of_decode hsel]
  case idle =>
    exact ⟨s.turnTaken, step_of_no_turn ((hasTurn_eq_false_iff s).2 hnone), turnTaken_ports s,
      turnTaken_active s, blockKept_turnTaken s, noHostDraw_turnTaken s⟩

end Sys2Proof.Machine
end

section
/-! What a command can do to the state (spec/10_state.md), said once: the operations each command's body may
use, its two kinds of ending, and that every meaning of `exec` is of this form. -/

namespace Sys2Proof.Machine

/-! ### The condition code of a response -/

/-- A response sets the condition code as 10_state.md R23 lets the command `i` do it. -/
structure CcFits (i : Instr) (r : Response) : Prop where
  source : r.ccv = true → i.setsCc = true
  unset : r.ccv = false → r.cc = 0#2
  set : i.setsCc = true → r.st ≠ .pgm ∨ r.pic = 0x0008#16 → r.ccv = true

theorem ccFits_of_set {i : Instr} {r : Response} (hi : i.setsCc = true) (hr : r.ccv = true) : CcFits i r where
  source _ := hi
  unset h := by simp [hr] at h
  set _ _ := hr

theorem ccFits_of_unset {i : Instr} {r : Response} (hi : i.setsCc = false) (hr : r.ccv = false)
    (hcc : r.cc = 0#2) : CcFits i r where
  source h := by simp [hr] at h
  unset _ := hcc
  set h := by simp [hi] at h

theorem pic_eq_overflow_iff (c : PgmCode) : c.pic = 0x0008#16 ↔ c = .fixedPointOverflow := by
  cases c <;> simp [PgmCode.pic]

/-- A suppressing interrupt fits every command: it sets no condition code. -/
theorem ccFits_suppressing (i : Instr) {c : PgmCode} (hc : c ≠ .fixedPointOverflow) :
    CcFits i (Response.interrupt c Response.ok) where
  source h := by simp [Response.interrupt, Response.ok] at h
  unset _ := rfl
  set _ h := by
    rcases h with hst | hpic
    · exact absurd rfl hst
    · exact absurd ((pic_eq_overflow_iff c).1 hpic) hc

theorem accessCode_ne_overflow (f : AccessFault) : accessCode f ≠ .fixedPointOverflow := by
  cases f <;> simp [accessCode]

theorem mismatchResponse_ccv (c : Config) (i : Bool) (old : Wide) : (mismatchResponse c i old).ccv = true := by
  cases i <;> rfl

/-! ### A change of one slot -/

/-- The command `i` samples the CPU timer of the slot numbered `d`: `UPDATE` every one, the timer commands the one
they name (43_timers.md R219, R222). -/
def SamplesTimer (i : Instr) (d : Nat) : Prop :=
  (∃ p, i = .update p) ∨ ∃ p c, (i = .getcpt p c ∨ i = .setcpt p c ∨ i = .cptpnd p c) ∧ c.toNat = d

/-- What the command `i` may change in the slot numbered `d` (10_state.md R35 to R38, 43_timers.md R222). -/
structure SlotChange (i : Instr) (d : Nat) (x y : Cpu) : Prop where
  todEpoch : y.todEpoch ≠ x.todEpoch → ∃ p c, i = .setepo p c ∧ c.toNat = d
  cptBase : y.cptBase ≠ x.cptBase → ∃ p c, i = .setcpt p c ∧ c.toNat = d
  itBase : y.itBase ≠ x.itBase → ∃ p c, i = .setit p c ∧ c.toNat = d
  latch : y.cptArmed ≠ x.cptArmed ∨ y.cptPending ≠ x.cptPending →
    SamplesTimer i d
  cleared : x.cptPending = true → y.cptPending = false → ∃ p c, i = .cptpnd p c ∧ c.toNat = d

theorem slotChange_refl (i : Instr) (d : Nat) (x : Cpu) : SlotChange i d x x where
  todEpoch h := absurd rfl h
  cptBase h := absurd rfl h
  itBase h := absurd rfl h
  latch h := by simp at h
  cleared h h' := by simp [h] at h'

theorem slotChange_trans {i : Instr} {d : Nat} {x y z : Cpu} (hxy : SlotChange i d x y)
    (hyz : SlotChange i d y z) : SlotChange i d x z where
  todEpoch h := by
    by_cases e : y.todEpoch = x.todEpoch
    · exact hyz.todEpoch (e ▸ h)
    · exact hxy.todEpoch e
  cptBase h := by
    by_cases e : y.cptBase = x.cptBase
    · exact hyz.cptBase (e ▸ h)
    · exact hxy.cptBase e
  itBase h := by
    by_cases e : y.itBase = x.itBase
    · exact hyz.itBase (e ▸ h)
    · exact hxy.itBase e
  latch h := by
    by_cases e : y.cptArmed ≠ x.cptArmed ∨ y.cptPending ≠ x.cptPending
    · exact hxy.latch e
    · obtain ⟨ea, ep⟩ : y.cptArmed = x.cptArmed ∧ y.cptPending = x.cptPending := by simpa using e
      exact hyz.latch (by rwa [ea, ep])
  cleared hx hz := by
    cases hy : y.cptPending with
    | true => exact hyz.cleared hy hz
    | false => exact hxy.cleared hx hy

/-- A sample of the timer moves the latch only, and clears no pending condition (43_timers.md R219). -/
theorem slotChange_cptSample {i : Instr} {d : Nat} (hi : SamplesTimer i d)
    (shift : Nat) (now : Word) (x : Cpu) : SlotChange i d x (cptSample shift now x) where
  todEpoch h := absurd (cptSample_todEpoch shift now x) h
  cptBase h := absurd (cptSample_cptBase shift now x) h
  itBase h := absurd (cptSample_itBase shift now x) h
  latch _ := hi
  cleared hx hy := by simp [cptSample_keeps_pending shift now x hx] at hy

theorem slotChange_setTodEpoch (p : Bool) (c : BitVec 8) (v : Word) (x : Cpu) :
    SlotChange (.setepo p c) c.toNat x (setTodEpoch v x) where
  todEpoch _ := ⟨p, c, rfl, rfl⟩
  cptBase h := absurd rfl h
  itBase h := absurd rfl h
  latch h := by simp at h
  cleared hx hy := by simp [hx] at hy

theorem slotChange_setItBase (p : Bool) (c : BitVec 8) (v : Word) (x : Cpu) :
    SlotChange (.setit p c) c.toNat x (setItBase v x) where
  todEpoch h := absurd rfl h
  cptBase h := absurd rfl h
  itBase _ := ⟨p, c, rfl, rfl⟩
  latch h := by simp at h
  cleared hx hy := by simp [hx] at hy

theorem slotChange_setCptBase (p : Bool) (c : BitVec 8) (shift : Nat) (now v : Word) (x : Cpu) :
    SlotChange (.setcpt p c) c.toNat x (setCptBase shift now v x) where
  todEpoch h := absurd rfl h
  cptBase _ := ⟨p, c, rfl, rfl⟩
  itBase h := absurd rfl h
  latch h := by simp at h
  cleared hx hy := by simp [hx] at hy

theorem slotChange_setCptSampled (p : Bool) (c : BitVec 8) (shift : Nat) (now v : Word) (x : Cpu) :
    SlotChange (.setcpt p c) c.toNat x (setCptSampled shift now v x) :=
  slotChange_trans (slotChange_setCptBase p c shift now v x)
    (slotChange_cptSample (.inr ⟨p, c, .inr (.inl rfl), rfl⟩) shift now _)

theorem slotChange_clearPending (p : Bool) (c : BitVec 8) (x : Cpu) :
    SlotChange (.cptpnd p c) c.toNat x (clearPending x) where
  todEpoch h := absurd rfl h
  cptBase h := absurd rfl h
  itBase h := absurd rfl h
  latch _ := .inr ⟨p, c, .inr (.inr rfl), rfl⟩
  cleared _ _ := ⟨p, c, rfl, rfl⟩

/-! ### The operations of a command's body -/

/-- The states the command `i`, run from `s`, passes through before it ends: each constructor is one operation
of the model, with the commands that use it. -/
inductive Body (i : Instr) (s : State) : State → Prop where
  | start : Body i s s
  | sampled {u : State} (b : Body i s u) : Body i s u.sampled
  | asked {u : State} (b : Body i s u) : Body i s u.asked
  | serialize {u : State} (b : Body i s u) : Body i s u.serialize
  | ticksTaken {u : State} (d : Word) (b : Body i s u) : Body i s (u.ticksTaken d)
  | readRmw {u : State} (a : Word) (n : Nat) (old : Wide) (b : Body i s u) : Body i s (u.readRmw a n old)
  | setCsr {u : State} (x : Csr) (mutator : i.csrMutator = true)
      (fine : x.fineRate ≠ u.csr.fineRate → ∃ p, i = .csrrst p ∨ i = .setrateF p)
      (gross : x.grossRate ≠ u.csr.grossRate → ∃ p, i = .csrrst p ∨ i = .setrateG p)
      (b : Body i s u) : Body i s (u.setCsr x)
  | latchClock (p : Bool) (update : i = .update p) : Body i s s.latchClock
  | onSlot {u : State} (c : BitVec 8) (f : Cpu → Cpu) (change : ∀ x, SlotChange i c.toNat x (f x))
      (b : Body i s u) : Body i s (u.onSlot c f)
  | storeRmw {u : State} (a : Word) (n : Nat) (old new : Wide) (reaches : i.reachesMemory = true)
      (b : Body i s u) : Body i s (u.storeRmw a n old new)
  | setRC {u : State} (a : Word) (reaches : i.reachesMemory = true) (b : Body i s u) : Body i s (u.setRC a)
  | setRef {u : State} (a : Word) (reaches : i.reachesMemory = true) (b : Body i s u) : Body i s (u.setRef a)
  | acquireGlock (p : Bool) (gacq : i = .gacq p) (free : s.glock = .free) : Body i s s.acquireGlock
  | releaseGlock (p : Bool) (grel : i = .grel p) (holder : s.glock = .held s.active) :
      Body i s s.releaseGlock

/-- The two kinds of ending of a command (60_exceptions.md R310, R341): a response, or a wait of one of the
commands that may be held. -/
inductive Ending (i : Instr) (s : State) : State → Prop where
  | answer {u : State} {r : Response} (b : Body i s u) (fits : CcFits i r) : Ending i s (u.complete r)
  | wait {u : State} (b : Body i s u) (waits : i.mayWait = true) : Ending i s u.hold

/-! ### The endings of the shared operations -/

variable {i : Instr} {s u : State}

theorem ending_raisePgm {c : PgmCode} (hc : c ≠ .fixedPointOverflow) (b : Body i s u) :
    Ending i s (u.raisePgm c) :=
  .answer b (ccFits_suppressing i hc)

/-- A `DONE` response with a value and no condition code. -/
theorem ending_value (hi : i.setsCc = false) (v : Wide) (b : Body i s u) :
    Ending i s (u.complete (Response.value v)) :=
  .answer b (ccFits_of_unset hi rfl rfl)

theorem ending_ok (hi : i.setsCc = false) (b : Body i s u) : Ending i s (u.complete Response.ok) :=
  ending_value hi 0#128 b

theorem ending_privileged {p : Bool} {run : State → State} (h : Ending i s (run s)) :
    Ending i s (s.privileged p run) := by
  rcases privileged_cases s p run with ⟨_, e⟩ | ⟨_, e⟩ <;> rw [e]
  · exact h
  · exact ending_raisePgm (by decide) .start

theorem ending_longForm {run : State → State} (h : Ending i s (run s)) : Ending i s (s.longForm run) := by
  rcases longForm_cases s run with ⟨_, e⟩ | ⟨_, e⟩ <;> rw [e]
  · exact h
  · exact ending_raisePgm (by decide) .start

theorem ending_withSlot {c : BitVec 8} {run : State → State} (h : Ending i s (run s)) :
    Ending i s (s.withSlot c run) := by
  rcases withSlot_cases s c run with ⟨_, e⟩ | ⟨_, e⟩ <;> rw [e]
  · exact h
  · exact ending_raisePgm (by decide) .start

theorem ending_withPair {r1 r3 : BitVec 4} {run : State → State} (h : Ending i s (run s)) :
    Ending i s (s.withPair r1 r3 run) := by
  rcases withPair_cases s r1 r3 run with ⟨_, e⟩ | ⟨_, e⟩ <;> rw [e]
  · exact h
  · exact ending_raisePgm (by decide) .start

theorem ending_endSigned (hi : i.setsCc = true) (m ovf : Bool) (r : Word) :
    Ending i s (s.endSigned m ovf r) := by
  rcases endSigned_cases s m ovf r with ⟨_, _, e⟩ | ⟨_, e⟩ <;> rw [e]
  · exact .answer .start (ccFits_of_set hi rfl)
  · exact .answer .start (ccFits_of_set hi rfl)

theorem ending_rewriteLockByte (hm : i.reachesMemory = true) (hi : i.setsCc = false) (a : Word) (v : Byte)
    (b : Body i s u) : Ending i s (u.rewriteLockByte a v) :=
  ending_ok hi (.setRC a hm (.storeRmw a 1 _ _ hm b))

theorem ending_lock (hw : i.mayWait = true) (hm : i.reachesMemory = true) (hi : i.setsCc = false)
    (k : LockKind) : Ending i s (s.lock k) := by
  rcases lock_cases s k with ⟨_, f, _, e⟩ | ⟨u, hu, hbit⟩
  · exact e ▸ ending_raisePgm (accessCode_ne_overflow f) (.asked .start)
  · have hbody : Body i s u := by
      rcases hu with ⟨_, rfl⟩ | ⟨_, _, rfl⟩
      · exact .start
      · exact .asked .start
    rcases hbit with ⟨_, e⟩ | ⟨_, e⟩ <;> rw [e]
    · exact ending_rewriteLockByte hm hi _ _ hbody
    · exact .wait hbody hw

theorem ending_tryLock (hm : i.reachesMemory = true) (hi : i.setsCc = false) (k : LockKind) :
    Ending i s (s.tryLock k) := by
  rcases tryLock_cases s k with ⟨f, _, e⟩ | ⟨_, _, e⟩ | ⟨_, _, e⟩ <;> rw [e]
  · exact ending_raisePgm (accessCode_ne_overflow f) (.asked .start)
  · exact ending_rewriteLockByte hm hi _ _ (.asked .start)
  · exact .answer (.readRmw _ _ _ (.asked .start)) (ccFits_of_unset hi rfl rfl)

theorem ending_unlock (hm : i.reachesMemory = true) (hi : i.setsCc = false) (k : LockKind) :
    Ending i s (s.unlock k) := by
  rcases unlock_cases s k with ⟨f, _, e⟩ | ⟨_, e⟩ <;> rw [e]
  · exact ending_raisePgm (accessCode_ne_overflow f) (.asked .start)
  · exact ending_rewriteLockByte hm hi _ _ (.asked .start)

theorem ending_casAccess (hm : i.reachesMemory = true) (hi : i.setsCc = true) (n : Nat) (k : Bool)
    (b : Body i s u) : Ending i s (u.casAccess n k) := by
  rcases casAccess_cases u n k with ⟨_, e⟩ | ⟨_, e⟩ <;> rw [e]
  · exact .answer (.serialize (.setRC _ hm (.storeRmw _ n _ _ hm b))) (ccFits_of_set hi rfl)
  · exact .answer (.serialize (.setRef _ hm (.readRmw _ n _ b)))
      (ccFits_of_set hi (mismatchResponse_ccv _ _ _))

theorem ending_compareAndSwap (hm : i.reachesMemory = true) (hi : i.setsCc = true) (n : Nat) (k : Bool) :
    Ending i s (s.compareAndSwap n k) := by
  rcases compareAndSwap_cases s n k with ⟨_, e⟩ | ⟨_, f, _, e⟩ | ⟨_, _, e⟩ <;> rw [e]
  · exact ending_raisePgm (by decide) .start
  · exact ending_raisePgm (accessCode_ne_overflow f) (.asked (.serialize .start))
  · exact ending_casAccess hm hi n k (.asked (.serialize .start))

theorem body_restartEpoch (hi : i.csrMutator = true) (t : Word) : Body i s (s.restartEpoch t) :=
  .setCsr _ hi (fun h => absurd rfl h) (fun h => absurd rfl h) (.sampled .start)

theorem body_sampleSlot {c : BitVec 8} (hi : SamplesTimer i c.toNat) : Body i s (s.sampleSlot c) :=
  .onSlot c _ (slotChange_cptSample hi _ _) (.sampled .start)

/-! ### The meanings -/

/-- What a command can do: a body of its operations, then one of its endings. -/
theorem exec_ending (i : Instr) (s : State) : ∃ t, exec i s = .next t ∧ Ending i s t := by
  cases i with
  | eadd _ | esub _ | eshf _ | e2t _ | t2e _ => exact ⟨_, rfl, ending_value rfl _ .start⟩
  | h2e _ | h2eF _ => exact ⟨_, rfl, ending_value rfl _ .start⟩
  | hclk _ | fetch _ => exact ⟨_, rfl, ending_value rfl _ (.sampled .start)⟩
  | csrrst p =>
    exact ⟨_, rfl, ending_privileged (ending_ok rfl
      (.setCsr _ rfl (fun _ => ⟨p, .inl rfl⟩) (fun _ => ⟨p, .inl rfl⟩) (.sampled .start)))⟩
  | setrateF p =>
    exact ⟨_, rfl, ending_privileged (ending_ok rfl
      (.setCsr _ rfl (fun _ => ⟨p, .inr rfl⟩) (fun h => absurd rfl h) (body_restartEpoch rfl _)))⟩
  | setrateG p =>
    exact ⟨_, rfl, ending_privileged (ending_ok rfl
      (.setCsr _ rfl (fun h => absurd rfl h) (fun _ => ⟨p, .inr rfl⟩) (body_restartEpoch rfl _)))⟩
  | setclk _ | adjoff _ => exact ⟨_, rfl, ending_privileged (ending_ok rfl (body_restartEpoch rfl _))⟩
  | getrateF _ | getrateG _ | getrateT _ => exact ⟨_, rfl, ending_value rfl _ .start⟩
  | update p => exact ⟨_, rfl, ending_value rfl _ (.latchClock p rfl)⟩
  | getepo _ _ | todclk _ _ => exact ⟨_, rfl, ending_withSlot (ending_value rfl _ .start)⟩
  | setepo p c =>
    exact ⟨_, rfl, ending_privileged (ending_withSlot (ending_ok rfl
      (.onSlot c _ (slotChange_setTodEpoch p c _) .start)))⟩
  | rdcsrSt _ | rdcsrBo _ | rdcsrTv _ => exact ⟨_, rfl, ending_value rfl _ .start⟩
  | getcpt p c =>
    exact ⟨_, rfl, ending_withSlot (ending_value rfl _ (body_sampleSlot (.inr ⟨p, c, .inl rfl, rfl⟩)))⟩
  | setcpt p c =>
    exact ⟨_, rfl, ending_privileged (ending_withSlot (ending_ok rfl
      (.onSlot c _ (slotChange_setCptSampled p c _ _ _) (.sampled .start))))⟩
  | cptpnd p c =>
    exact ⟨_, rfl, ending_withSlot (ending_value rfl _
      (.onSlot c _ (slotChange_clearPending p c) (body_sampleSlot (.inr ⟨p, c, .inr (.inr rfl), rfl⟩))))⟩
  | getit _ _ => exact ⟨_, rfl, ending_withSlot (ending_value rfl _ (.ticksTaken _ (.sampled .start)))⟩
  | setit p c =>
    exact ⟨_, rfl, ending_withSlot (ending_ok rfl
      (.onSlot c _ (slotChange_setItBase p c _) (.sampled .start)))⟩
  | it2e _ => exact ⟨_, rfl, ending_value rfl _ .start⟩
  | e2it _ => exact ⟨_, rfl, ending_value rfl _ (.ticksTaken _ .start)⟩
  | lockR _ | lockP _ | lockS _ => exact ⟨_, rfl, ending_lock rfl rfl rfl _⟩
  | trylockR _ | trylockP _ | trylockS _ => exact ⟨_, rfl, ending_tryLock rfl rfl _⟩
  | unlockR _ | unlockP _ | unlockS _ => exact ⟨_, rfl, ending_unlock rfl rfl _⟩
  | gacq p =>
    refine ⟨_, rfl, ?_⟩
    split
    case isTrue hfree => exact ending_ok rfl (.acquireGlock p rfl hfree)
    case isFalse => exact .wait .start rfl
  | grel p =>
    refine ⟨_, rfl, ?_⟩
    split
    case isTrue hheld => exact ending_ok rfl (.releaseGlock p rfl hheld)
    case isFalse => exact ending_ok rfl .start
  | casW _ _ | casG _ _ => exact ⟨_, rfl, ending_compareAndSwap rfl rfl _ _⟩
  | casQ _ _ _ _ | casD _ _ _ _ => exact ⟨_, rfl, ending_withPair (ending_compareAndSwap rfl rfl _ _)⟩
  | agl _ _ | sgl _ _ | slagl _ _ => exact ⟨_, rfl, ending_longForm (ending_endSigned rfl _ _ _)⟩
  | alcgl _ _ | slbgl _ _ => exact ⟨_, rfl, ending_longForm (.answer .start (ccFits_of_set rfl rfl))⟩
  | bctgl _ | brctgl _ => exact ⟨_, rfl, ending_longForm (.answer .start (ccFits_of_unset rfl rfl rfl))⟩

theorem ending_of_exec {t : State} (h : exec i s = .next t) : Ending i s t := by
  obtain ⟨t', ht', hend⟩ := exec_ending i s
  obtain rfl : t' = t := Host.Outcome.next.inj (ht'.symm.trans h)
  exact hend

end Sys2Proof.Machine
end

section
/-! Proofs about the state of the block (spec/10_state.md): what a command's body keeps, who writes each
element of the state, and the invariant. -/

namespace Sys2Proof.Machine

variable {i : Instr} {s t u : State}

/-! ### What the body of a command keeps -/

theorem body_cfg (b : Body i s u) : u.cfg = s.cfg := by
  induction b <;> simp [*]

theorem body_active (b : Body i s u) : u.active = s.active := by
  induction b <;> simp [*]

theorem body_ports (b : Body i s u) : u.ports = s.ports := by
  induction b <;> simp [*]

theorem body_cpus_length (b : Body i s u) : u.cpus.length = s.cpus.length := by
  induction b <;> simp [*]

/-- Every element of 10_state.md R20, the configuration and the issuing port are as before; the ports may have
moved. -/
structure PortsOnly (u t : State) : Prop where
  csr : t.csr = u.csr
  todValue : t.todValue = u.todValue
  cpus : t.cpus = u.cpus
  glock : t.glock = u.glock
  mem : t.mem = u.mem
  keyRc : t.keyRc = u.keyRc
  cfg : t.cfg = u.cfg
  active : t.active = u.active

theorem portsOnly_complete (u : State) (r : Response) : PortsOnly u (u.complete r) := by
  constructor <;> simp

theorem portsOnly_hold (u : State) : PortsOnly u u.hold := by
  constructor <;> simp

theorem exists_body_of_ending (h : Ending i s t) : ∃ u, Body i s u ∧ PortsOnly u t := by
  cases h with
  | @answer u r b _ => exact ⟨u, b, portsOnly_complete u r⟩
  | @wait u b _ => exact ⟨u, b, portsOnly_hold u⟩

/-! ### Who writes the clock -/

theorem body_epoch (hi : ¬i.csrMutator = true) (b : Body i s u) :
    u.csr.startTime = s.csr.startTime ∧ u.csr.baseOffset = s.csr.baseOffset := by
  induction b with
  | setCsr x mutator => exact absurd mutator hi
  | _ => simp [*]

theorem body_fineRate (hi : ¬∃ p, i = .csrrst p ∨ i = .setrateF p) (b : Body i s u) :
    u.csr.fineRate = s.csr.fineRate := by
  induction b with
  | setCsr x _ fine _ _ ih => exact (not_imp_comm.1 fine hi).trans ih
  | _ => simp [*]

theorem body_grossRate (hi : ¬∃ p, i = .csrrst p ∨ i = .setrateG p) (b : Body i s u) :
    u.csr.grossRate = s.csr.grossRate := by
  induction b with
  | setCsr x _ _ gross _ ih => exact (not_imp_comm.1 gross hi).trans ih
  | _ => simp [*]

theorem body_todValue (hi : ¬∃ p, i = .update p) (b : Body i s u) : u.todValue = s.todValue := by
  induction b with
  | latchClock p update => exact absurd ⟨p, update⟩ hi
  | _ => simp [*]

/-- Settles O10: the body of a command that is none of the writers keeps the element. -/
theorem onlyTheirCommandsWriteTheClock : Obligations.OnlyTheirCommandsWriteTheClock := by
  intro i s t h
  obtain ⟨u, hb, he⟩ := exists_body_of_ending (ending_of_exec h)
  simp only [he.csr, he.todValue, he.cfg]
  refine ⟨fun hne => ?epoch, not_imp_comm.1 (body_fineRate · hb), not_imp_comm.1 (body_grossRate · hb),
    not_imp_comm.1 (body_todValue · hb), body_cfg hb⟩
  case epoch =>
    by_contra hi
    obtain ⟨hst, hbo⟩ := body_epoch hi hb
    exact hne.elim (· hst) (· hbo)

/-! ### Who writes a slot -/

theorem body_slot (b : Body i s u) {d : Nat} {x : Cpu} (hx : s.cpus[d]? = some x) :
    ∃ y, u.cpus[d]? = some y ∧ SlotChange i d x y := by
  induction b with
  | latchClock p update =>
    exact ⟨cptSample s.cfg.cptShift s.now x, by simp [hx], slotChange_cptSample (.inl ⟨p, update⟩) _ _ x⟩
  | @onSlot v c f change _ ih =>
    obtain ⟨z, hz, hxz⟩ := ih
    by_cases hc : c.toNat = d
    · subst hc
      exact ⟨f z, by simp [hz], slotChange_trans hxz (change z)⟩
    · exact ⟨z, by simp [hc, hz], hxz⟩
  | start | acquireGlock | releaseGlock => exact ⟨x, hx, slotChange_refl i d x⟩
  | _ => assumption

/-- Settles O11: every operation of a command's body changes a slot as its command may. -/
theorem onlyTheirCommandsWriteASlot : Obligations.OnlyTheirCommandsWriteASlot := by
  intro i s t h
  obtain ⟨u, hb, he⟩ := exists_body_of_ending (ending_of_exec h)
  simp only [he.cpus]
  refine ⟨body_cpus_length hb, fun d x y hx hy => ?_⟩
  obtain ⟨z, hz, hchange⟩ := body_slot hb hx
  obtain rfl : z = y := Option.some.inj (hz.symm.trans hy)
  obtain ⟨hepoch, hcpt, hit, hlatch, hcleared⟩ := hchange
  exact ⟨hepoch, hcpt, hit, hlatch, hcleared⟩

/-! ### Who writes the shared state -/

/-- The coarse lock after a body: as before, taken free by `GACQ`, or freed by its holder's `GREL`. -/
theorem body_glock_cases (b : Body i s u) :
    u.glock = s.glock ∨
      (∃ p, i = .gacq p ∧ s.glock = .free ∧ u.glock = .held s.active) ∨
      (∃ p, i = .grel p ∧ s.glock = .held s.active ∧ u.glock = .free) := by
  induction b with
  | start | latchClock => exact .inl (by simp)
  | acquireGlock p gacq free => exact .inr (.inl ⟨p, gacq, free, acquireGlock_glock s⟩)
  | releaseGlock p grel holder => exact .inr (.inr ⟨p, grel, holder, releaseGlock_glock s⟩)
  | _ => assumption

theorem body_storage (hi : i.reachesMemory = false) (b : Body i s u) : u.mem = s.mem ∧ u.keyRc = s.keyRc := by
  induction b with
  | storeRmw _ _ _ _ reaches | setRC _ reaches | setRef _ reaches => simp [hi] at reaches
  | _ => simp [*]

/-- Settles O12, from the three cases of the coarse lock and the operations that reach memory. -/
theorem onlyTheirCommandsWriteTheSharedState : Obligations.OnlyTheirCommandsWriteTheSharedState := by
  intro i s t h
  obtain ⟨u, hb, he⟩ := exists_body_of_ending (ending_of_exec h)
  simp only [he.glock, he.mem, he.keyRc]
  exact ⟨(body_glock_cases hb).resolve_left, fun hi => body_storage hi hb⟩

/-! ### The key flags -/

/-- Every key flag that is set in `s` is set in `t` (10_state.md R44). -/
def FlagsKept (s t : State) : Prop := ∀ f,
  ((s.keyFlags f).r = true → (t.keyFlags f).r = true) ∧ ((s.keyFlags f).c = true → (t.keyFlags f).c = true)

theorem flagsKept_setRC (s : State) (a : Word) : FlagsKept s (s.setRC a) := by
  intro f
  by_cases hf : f = frameOf s.cfg a
  · subst hf; simp [keyFlags_setRC_self]
  · simp [keyFlags_setRC_ne s a hf]

theorem flagsKept_setRef (s : State) (a : Word) : FlagsKept s (s.setRef a) := by
  intro f
  by_cases hf : f = frameOf s.cfg a
  · subst hf; simp [keyFlags_setRef_self]
  · simp [keyFlags_setRef_ne s a hf]

theorem flagsKept_trans {s t u : State} (hst : FlagsKept s t) (htu : FlagsKept t u) : FlagsKept s u :=
  fun f => ⟨(htu f).1 ∘ (hst f).1, (htu f).2 ∘ (hst f).2⟩

theorem flagsKept_of_keyRc_eq (h : t.keyRc = s.keyRc) : FlagsKept s t := by
  intro f; simp [State.keyFlags, h]

theorem body_flagsKept (b : Body i s u) : FlagsKept s u := by
  induction b with
  | setRC a _ _ ih => exact flagsKept_trans ih (flagsKept_setRC _ a)
  | setRef a _ _ ih => exact flagsKept_trans ih (flagsKept_setRef _ a)
  | start | latchClock | acquireGlock | releaseGlock => exact flagsKept_of_keyRc_eq (by simp)
  | _ => assumption

/-- Settles O13: `SetRC` and the reference marking of `CAS` set flags, no other operation touches one. -/
theorem keyFlagsAreNeverCleared : Obligations.KeyFlagsAreNeverCleared := by
  intro i s t h
  obtain ⟨u, hb, he⟩ := exists_body_of_ending (ending_of_exec h)
  exact flagsKept_trans (body_flagsKept hb) (flagsKept_of_keyRc_eq he.keyRc)

/-! ### The condition code -/

/-- An ending answers the issuing port with a response that fits, or makes it wait. -/
theorem ending_ports (h : Ending i s t) :
    (∃ r, CcFits i r ∧ t.ports = s.ports.modify s.active (Port.answer r)) ∨
      (i.mayWait = true ∧ t.ports = s.ports.modify s.active Port.wait) := by
  cases h with
  | @answer u r b fits => exact .inl ⟨r, fits, by simp [body_ports b, body_active b]⟩
  | wait b waits => exact .inr ⟨waits, by simp [body_ports b, body_active b]⟩

/-- Settles O17: the response a command ends with fits its command, and a wait is no answer. -/
theorem conditionCodeComesFromItsCommands : Obligations.ConditionCodeComesFromItsCommands := by
  intro i s t r hl h hr
  rcases ending_ports (ending_of_exec h) with ⟨r', hfits, hports⟩ | ⟨_, hports⟩
  · obtain rfl : r' = r := answered_unique (answered_of_ports hports hl) hr
    exact ⟨hfits.source, hfits.unset, hfits.set⟩
  · exact absurd hr (waiting_not_answered (waiting_of_ports hports hl))

/-! ### The invariant -/

/-- The invariant `State.wf`, its parts by name. -/
structure Wf (s : State) : Prop where
  legal : s.cfg.legal = true
  slots : s.cpus.length = s.cfg.ncpu
  ports : s.ports.length = s.cfg.nport
  mem : Memory.wf s.mem = true
  keys : KeyStore.wf s.cfg.keyShift s.keyRc = true
  active : s.active < s.cfg.nport
  glock : glockWf s.cfg.nport s.glock = true
  held : ∀ p ∈ s.ports, portWf s.cfg.hasLong p = true

theorem wf_iff (s : State) : s.wf = true ↔ Wf s := by
  simp only [State.wf, Bool.and_eq_true, decide_eq_true_eq, List.all_eq_true]
  constructor
  · rintro ⟨⟨⟨⟨⟨⟨⟨legal, slots⟩, ports⟩, mem⟩, keys⟩, active⟩, glock⟩, held⟩
    exact ⟨legal, slots, ports, mem, keys, active, glock, held⟩
  · rintro ⟨legal, slots, ports, mem, keys, active, glock, held⟩
    exact ⟨⟨⟨⟨⟨⟨⟨legal, slots⟩, ports⟩, mem⟩, keys⟩, active⟩, glock⟩, held⟩

theorem keyShift_le_of_legal {c : Config} (h : c.legal = true) : c.keyShift ≤ 64 := by
  have hk : c.keyShift ≤ 63 := by
    simp only [Config.legal, Bool.and_eq_true, decide_eq_true_eq] at h
    tauto
  omega

theorem portWf_of_not_held {hasLong : Bool} {p : Port} (h : p.held = false) : portWf hasLong p = true := by
  simp [portWf, h]

theorem portWf_wait {hasLong : Bool} {p : Port} (hreq : p.requests ≠ [])
    (hdec : decode hasLong p.outstanding.cw = .ok i) (hi : i.mayWait = true) :
    portWf hasLong p.wait = true := by
  cases hp : p.requests with
  | nil => exact absurd hp hreq
  | cons r rest =>
    have hr : decode hasLong r.cw = .ok i := by simpa [Port.outstanding, hp] using hdec
    simp [portWf, Port.wait, hp, hr, hi]

theorem forall_mem_modify {α : Type} {l : List α} {n : Nat} {f : α → α} {P : α → Prop}
    (hl : ∀ x ∈ l, P x) (hf : ∀ x, l[n]? = some x → P (f x)) : ∀ x ∈ l.modify n f, P x := by
  intro x hx
  obtain ⟨m, hm⟩ := List.mem_iff_getElem?.1 hx
  by_cases hn : n = m
  · subst hn
    obtain ⟨y, hy, rfl⟩ : ∃ y, l[n]? = some y ∧ f y = x := by simpa using hm
    exact hf y hy
  · exact hl x (List.mem_iff_getElem?.2 ⟨m, by simpa [hn] using hm⟩)

theorem body_mem_wf (b : Body i s u) (h : Memory.wf s.mem = true) : Memory.wf u.mem = true := by
  induction b with
  | storeRmw a n _ new _ _ ih => exact memWrite_wf a n new ih
  | _ => simpa using ‹_›

theorem body_keyRc_wf (b : Body i s u) (hk : s.cfg.keyShift ≤ 64)
    (h : KeyStore.wf s.cfg.keyShift s.keyRc = true) : KeyStore.wf s.cfg.keyShift u.keyRc = true := by
  induction b with
  | setRC a _ b ih =>
    rw [← body_cfg b] at hk ih ⊢
    exact setRC_keyRc_wf _ a hk ih
  | setRef a _ b ih =>
    rw [← body_cfg b] at hk ih ⊢
    exact setRef_keyRc_wf _ a hk ih
  | _ => simpa using ‹_›

theorem body_glock_wf (b : Body i s u) (ha : s.active < s.cfg.nport)
    (h : glockWf s.cfg.nport s.glock = true) : glockWf s.cfg.nport u.glock = true := by
  rcases body_glock_cases b with e | ⟨_, _, _, e⟩ | ⟨_, _, _, e⟩
  · rwa [e]
  · simpa [e, glockWf] using ha
  · rw [e]; rfl

/-- A command keeps the invariant wherever its ending leaves the ports well formed. -/
theorem wf_of_ending (hs : Wf s) (h : Ending i s t) (hheld : ∀ p ∈ t.ports, portWf s.cfg.hasLong p = true) :
    Wf t := by
  have hlength : t.ports.length = s.ports.length := by
    rcases ending_ports h with ⟨_, _, e⟩ | ⟨_, e⟩ <;> simp [e]
  obtain ⟨u, hb, he⟩ := exists_body_of_ending h
  have hcfg : t.cfg = s.cfg := he.cfg.trans (body_cfg hb)
  constructor
  case legal => rw [hcfg]; exact hs.legal
  case slots => rw [he.cpus, body_cpus_length hb, hs.slots, hcfg]
  case ports => rw [hlength, hs.ports, hcfg]
  case mem => rw [he.mem]; exact body_mem_wf hb hs.mem
  case keys => rw [he.keyRc, hcfg]; exact body_keyRc_wf hb (keyShift_le_of_legal hs.legal) hs.keys
  case active => rw [he.active, body_active hb, hcfg]; exact hs.active
  case glock => rw [he.glock, hcfg]; exact body_glock_wf hb hs.active hs.glock
  case held => rw [hcfg]; exact hheld

theorem portAt_of_getElem? {n : Nat} {p : Port} (h : s.ports[n]? = some p) : s.portAt n = p := by
  simp [State.portAt, List.getD_eq_getElem?_getD, h]

/-- A command keeps the invariant: an answered port is not held, and only a command that may be held waits. -/
theorem wf_of_exec (hs : Wf s) (hreq : s.requestsOf s.active ≠ [])
    (hdec : decode s.cfg.hasLong s.request.cw = .ok i) (h : exec i s = .next t) : Wf t := by
  have hend := ending_of_exec h
  refine wf_of_ending hs hend ?_
  rcases ending_ports hend with ⟨r, _, hports⟩ | ⟨hwait, hports⟩ <;> rw [hports]
  · exact forall_mem_modify hs.held fun _ _ => portWf_of_not_held rfl
  · refine forall_mem_modify hs.held fun p hp => ?_
    obtain rfl : s.portAt s.active = p := portAt_of_getElem? hp
    exact portWf_wait hreq hdec hwait

theorem wf_raisePgm (hs : Wf s) (c : PgmCode) : Wf (s.raisePgm c) where
  legal := hs.legal
  slots := hs.slots
  ports := by simpa using hs.ports
  mem := hs.mem
  keys := hs.keys
  active := hs.active
  glock := hs.glock
  held := by
    rw [raisePgm_ports]
    exact forall_mem_modify hs.held fun _ _ => portWf_of_not_held rfl

theorem wf_of_runCommand (hs : Wf s) (hreq : s.requestsOf s.active ≠ []) (h : runCommand s = .next t) :
    Wf t := by
  rcases runCommand_cases s with ⟨i, hdec, hrun⟩ | ⟨r, _, hrun⟩
  · exact wf_of_exec hs hreq hdec (hrun ▸ h)
  · obtain rfl : s.raisePgm (rejectionCode r) = t := Host.Outcome.next.inj (hrun ▸ h)
    exact wf_raisePgm hs _

theorem wf_turnTaken (hs : Wf s) : Wf s.turnTaken :=
  ⟨hs.legal, hs.slots, hs.ports, hs.mem, hs.keys, hs.active, hs.glock, hs.held⟩

/-- A port with an outstanding command is one the block has. -/
theorem lt_length_of_requestsOf_ne_nil {n : Nat} (h : s.requestsOf n ≠ []) : n < s.ports.length := by
  by_contra hn
  exact h (by simp [State.requestsOf, State.portAt, List.getD_eq_getElem?_getD, Nat.le_of_not_lt hn, resetPort])

theorem wf_select (hs : Wf s) (h : s.requestsOf s.nextPort ≠ []) : Wf s.select where
  legal := hs.legal
  slots := hs.slots
  ports := hs.ports
  mem := hs.mem
  keys := hs.keys
  active := by
    have hlt : s.nextPort < s.ports.length := lt_length_of_requestsOf_ne_nil h
    simpa [← hs.ports] using hlt
  glock := hs.glock
  held := hs.held

/-- Settles O7: the step runs a command from the selected state, which keeps the invariant, or only uses up the
turn. -/
theorem everyStepKeepsTheInvariant : Obligations.EveryStepKeepsTheInvariant := by
  intro s t hwf hstep
  rw [wf_iff] at hwf ⊢
  rcases step_cases s with ⟨hturn, e⟩ | ⟨_, e⟩
  · have hreq : s.requestsOf s.nextPort ≠ [] := (hasTurn_eq_true_iff s).1 hturn
    exact wf_of_runCommand (wf_select hwf hreq) hreq (e ▸ hstep)
  · obtain rfl : s.turnTaken = t := Host.Outcome.next.inj (e ▸ hstep)
    exact wf_turnTaken hwf

/-! ### Reset -/

theorem legal_defaultConfig : defaultConfig.legal = true := by decide

theorem wf_resetAt (c : Config) (h : HostSample) (hc : c.legal = true) : Wf (State.resetAt c h) where
  legal := hc
  slots := List.length_replicate
  ports := List.length_replicate
  mem := (resetAt_stores_wf c h).1
  keys := (resetAt_stores_wf c h).2
  active := by
    have hports : 1 ≤ c.nport := by
      simp only [Config.legal, Bool.and_eq_true, decide_eq_true_eq] at hc
      tauto
    exact hports
  glock := rfl
  held p hp := by
    obtain rfl : p = resetPort := List.eq_of_mem_replicate hp
    exact portWf_of_not_held rfl

/-- Settles O8: reset builds as many slots and ports as the configuration says, empty stores and idle ports. -/
theorem resetMeetsTheInvariant : Obligations.ResetMeetsTheInvariant :=
  ⟨(wf_iff _).2 (wf_resetAt _ _ legal_defaultConfig), fun c h hc => (wf_iff _).2 (wf_resetAt c h hc)⟩

end Sys2Proof.Machine
end

section
/-! Proofs about the bytes of memory (spec/20_memory.md R74): a multi-byte operand is stored and read with the
most significant byte first. -/

namespace Sys2Proof.Machine

/-! ### The bytes of an operand -/

theorem operandByte_last (n : Nat) (v : Wide) : operandByte (n + 1) v n = v.setWidth 8 := by
  simp [operandByte]

/-- The bytes before the last one are those of the value without its lowest byte. -/
theorem operandByte_of_lt {n j : Nat} (v : Wide) (h : j < n) :
    operandByte (n + 1) v j = operandByte n (v >>> 8) j := by
  have hexp : n - j = n - 1 - j + 1 := by omega
  simp [operandByte, hexp, Nat.shiftRight_eq_div_pow, Nat.div_div_eq_div_mul, Nat.pow_succ']

/-! ### Reading -/

theorem memReadNat_lt (m : Memory) (a : Word) (n : Nat) : memReadNat m a n < 256 ^ n := by
  induction n with
  | zero => simp [memReadNat]
  | succ n ih =>
    have hbyte := (memByte m (a + BitVec.ofNat 64 n)).isLt
    rw [memReadNat, Nat.pow_succ]
    omega

theorem toNat_memRead (m : Memory) (a : Word) {n : Nat} (h : n ≤ 16) :
    (memRead m a n).toNat = memReadNat m a n := by
  have hbound : 256 ^ n ≤ 2 ^ 128 := Nat.pow_le_pow_right (n := 256) (by decide) h
  exact Nat.mod_eq_of_lt ((memReadNat_lt m a n).trans_le hbound)

/-- The byte of a read at offset `j` is the one in memory there. -/
theorem ofNat_memReadNat_div (m : Memory) (a : Word) {n j : Nat} (h : j < n) :
    BitVec.ofNat 8 (memReadNat m a n / 256 ^ (n - 1 - j)) = memByte m (a + BitVec.ofNat 64 j) := by
  induction n with
  | zero => omega
  | succ n ih =>
    have hbyte := (memByte m (a + BitVec.ofNat 64 n)).isLt
    rcases Nat.lt_succ_iff_lt_or_eq.1 h with hlt | rfl
    · have hexp : n + 1 - 1 - j = n - 1 - j + 1 := by omega
      have hdrop : memReadNat m a (n + 1) / 256 = memReadNat m a n := by rw [memReadNat]; omega
      rw [hexp, Nat.pow_succ', ← Nat.div_div_eq_div_mul, hdrop]
      exact ih hlt
    · apply BitVec.eq_of_toNat_eq
      simpa [memReadNat] using hbyte

theorem operandByte_memRead (m : Memory) (a : Word) {n j : Nat} (hn : n ≤ 16) (hj : j < n) :
    operandByte n (memRead m a n) j = memByte m (a + BitVec.ofNat 64 j) := by
  rw [operandByte, toNat_memRead m a hn, ofNat_memReadNat_div m a hj]

/-- Memory that holds the bytes of a value reads as its low bytes. -/
theorem memReadNat_of_bytes {m : Memory} {a : Word} {n : Nat} {v : Wide}
    (h : ∀ j < n, memByte m (a + BitVec.ofNat 64 j) = operandByte n v j) :
    memReadNat m a n = v.toNat % 256 ^ n := by
  induction n generalizing v with
  | zero => simp [memReadNat, Nat.mod_one]
  | succ n ih =>
    have hinit : memReadNat m a n = v.toNat / 256 % 256 ^ n := by
      simpa [Nat.shiftRight_eq_div_pow] using ih (v := v >>> 8) fun j hj =>
        (h j (Nat.lt_succ_of_lt hj)).trans (operandByte_of_lt v hj)
    have hlast : memByte m (a + BitVec.ofNat 64 n) = v.setWidth 8 :=
      (h n (Nat.lt_succ_self n)).trans (operandByte_last n v)
    have hvalue : v.toNat % 256 ^ (n + 1) = v.toNat % 256 + 256 * (v.toNat / 256 % 256 ^ n) := by
      rw [Nat.pow_succ', Nat.mod_mul]
    rw [memReadNat, hinit, hlast, hvalue, BitVec.toNat_setWidth]
    omega

theorem memRead_of_bytes {m : Memory} {a : Word} {n : Nat} {v : Wide}
    (h : ∀ j < n, memByte m (a + BitVec.ofNat 64 j) = operandByte n v j) :
    memRead m a n = operandValue n v := by
  rw [memRead, memReadNat_of_bytes h, operandValue]

/-! ### Writing -/

/-- Offsets of a block no longer than the address space name different bytes, over its top too. -/
theorem add_ofNat_ne {a : Word} {j n : Nat} (hj : j < n) (hn : n < 2 ^ 64) :
    a + BitVec.ofNat 64 j ≠ a + BitVec.ofNat 64 n := by
  intro h
  have heq : j % 2 ^ 64 = n % 2 ^ 64 := by simpa [← BitVec.toNat_inj] using h
  omega

/-- A write stores the byte at offset `j` of the value at offset `j` of the address. -/
theorem memByte_memWrite_inside {m : Memory} (a : Word) {n j : Nat} (v : Wide) (hm : Memory.wf m = true)
    (hn : n ≤ 2 ^ 64) (hj : j < n) :
    memByte (memWrite m a n v) (a + BitVec.ofNat 64 j) = operandByte n v j := by
  induction n generalizing v with
  | zero => omega
  | succ n ih =>
    rcases Nat.lt_succ_iff_lt_or_eq.1 hj with hlt | rfl
    · rw [memWrite, memByte_memSetByte_ne _ _ (add_ofNat_ne hlt hn), operandByte_of_lt v hlt]
      exact ih (v >>> 8) (Nat.le_of_succ_le hn) hlt
    · rw [memWrite, memByte_memSetByte_self _ _ (memWrite_wf a j _ hm), operandByte_last]

/-- Settles O53: the bytes a write stores are those of the value, and a read puts the same bytes together. -/
theorem memoryReadsBackBigEndian : Obligations.MemoryReadsBackBigEndian := by
  intro m a n v hm hmem
  have hn : n ≤ 16 := (by decide : ∀ k ∈ [1, 4, 8, 16], k ≤ 16) n hmem
  have hstored : ∀ j < n, memByte (memWrite m a n v) (a + BitVec.ofNat 64 j) = operandByte n v j :=
    fun j hj => memByte_memWrite_inside a v hm (by omega) hj
  exact ⟨memRead_of_bytes hstored, hstored, fun b hb => memByte_memWrite_outside m a n v hb,
    fun j hj => operandByte_memRead m a hn hj⟩

end Sys2Proof.Machine
end

section
/-! Proofs about the command words (spec/30_encoding.md): the decoder and the encoder are inverse to each other, a
word matches a row of the opcode table exactly when its fields name a command, and the order in which a command
word is rejected. -/

namespace Sys2Proof

/-! ### The formats -/

theorem whenZero_eq_some {ok : Bool} {i j : Instr} : whenZero ok i = some j ↔ ok = true ∧ i = j := by
  cases ok <;> simp [whenZero]

/-! The must-be-zero fields of a format are zero exactly when the fields are those the encoder lays out for it. -/

theorem formatF0_iff (f : Fields) : formatF0 f = true ↔ f = fieldsFS f.opc f.sel f.p := by
  cases f; simp [formatF0, fieldsFS, and_assoc]

theorem formatFC_iff (f : Fields) : formatFC f = true ↔ f = fieldsFC f.opc f.p f.cpu := by
  cases f; simp [formatFC, fieldsFC, and_assoc]

theorem formatFM_iff (f : Fields) : formatFM f = true ↔ f = fieldsFX f.opc f.sel f.p f.m 0#4 0#4 := by
  cases f; simp [formatFM, fieldsFX, and_assoc]

theorem formatFK_iff (f : Fields) : formatFK f = true ↔ f = ⟨f.opc, 0#8, f.sel, f.p, false, f.cci, 0#4, 0#4⟩ := by
  cases f; simp [formatFK, and_assoc]

theorem formatFXP_iff (f : Fields) : formatFXP f = true ↔ f = fieldsFX f.opc f.sel f.p f.m f.r1 f.r3 := by
  cases f; simp [formatFXP, fieldsFX]

/-! ### Fields and commands -/

theorem decodeFields_encodeFields (i : Instr) : decodeFields (encodeFields i) = some i := by
  cases i <;> rfl

/-- A form of the opcode map is reached only by the fields its command is encoded with. -/
theorem encodeFields_of_decodeFields {f : Fields} {i : Instr} (h : decodeFields f = some i) :
    encodeFields i = f := by
  obtain ⟨opc, cpu, sel, p, m, cci, r1, r3⟩ := f
  simp only [decodeFields, formF0] at h
  repeat' split at h
  all_goals simp only [whenZero_eq_some, reduceCtorEq] at h
  all_goals
    obtain ⟨hzero, rfl⟩ := h
    simp only [formatF0_iff, formatFC_iff, formatFM_iff, formatFK_iff, formatFXP_iff] at hzero
    exact hzero.symm

theorem decodeFields_eq_some_iff {f : Fields} {i : Instr} : decodeFields f = some i ↔ encodeFields i = f :=
  ⟨encodeFields_of_decodeFields, fun h => h ▸ decodeFields_encodeFields i⟩

theorem encode_eq_iff {i : Instr} {w : CmdWord} : encode i = w ↔ encodeFields i = unpackFields w :=
  ⟨fun h => by rw [← h, encode, unpackFields_packFields], fun h => by rw [encode, h, packFields_unpackFields]⟩

/-! ### The decoder -/

theorem opcAssigned_eq_true_iff (hasLong : Bool) (opc : BitVec 8) :
    opcAssigned hasLong opc = true ↔ opc.toNat ∈ opcodeNumbers hasLong := by
  have hlong : opcLong opc = true ↔ opc.toNat ∈ [0x50, 0x51, 0x52, 0x53, 0x54, 0x55, 0x56] := by
    simp only [opcLong, Bool.and_eq_true, decide_eq_true_eq, List.mem_cons, List.not_mem_nil, or_false]
    omega
  cases hasLong <;> simp [opcAssigned, opcShort, opcodeNumbers, hlong, or_assoc]

/-- The operation code of a command is assigned, but for a command of family 5 in a block without the family. -/
theorem opcAssigned_encodeFields (hasLong : Bool) (i : Instr) :
    opcAssigned hasLong (encodeFields i).opc = (!i.isLong || hasLong) := by
  cases i <;> cases hasLong <;> rfl

theorem decode_of_unassigned {hasLong : Bool} {w : CmdWord}
    (h : opcAssigned hasLong (unpackFields w).opc = false) : decode hasLong w = .error .operation := by
  simp [decode, h]

theorem decode_of_encode {hasLong : Bool} {w : CmdWord} {i : Instr}
    (h : opcAssigned hasLong (unpackFields w).opc = true) (hi : encode i = w) : decode hasLong w = .ok i := by
  have hfields : decodeFields (unpackFields w) = some i := decodeFields_eq_some_iff.2 (encode_eq_iff.1 hi)
  simp [decode, h, hfields]

/-- A word with an assigned operation code that encodes no command is rejected for its privilege bit first. -/
theorem decode_of_no_command {hasLong : Bool} {w : CmdWord}
    (h : opcAssigned hasLong (unpackFields w).opc = true) (hnone : ∀ i, encode i ≠ w) :
    decode hasLong w = .error (if opcPrivileged (unpackFields w).opc && !(unpackFields w).p
      then .privilegedOperation else .specification) := by
  have hfields : decodeFields (unpackFields w) = none :=
    Option.eq_none_iff_forall_ne_some.2 fun i hi => hnone i (encode_eq_iff.2 (decodeFields_eq_some_iff.1 hi))
  simp only [decode, h, hfields, Bool.not_true, Bool.false_eq_true, if_false]
  exact (apply_ite Except.error _ _ _).symm

/-- The words that decode are the encodings of the commands the block has. -/
theorem decode_eq_ok_iff {hasLong : Bool} {w : CmdWord} {i : Instr} :
    decode hasLong w = .ok i ↔ encode i = w ∧ (i.isLong = true → hasLong = true) := by
  have hassigned : encode i = w →
      (opcAssigned hasLong (unpackFields w).opc = true ↔ (i.isLong = true → hasLong = true)) := fun hi => by
    rw [← encode_eq_iff.1 hi, opcAssigned_encodeFields]
    cases i.isLong <;> simp
  constructor
  · intro h
    cases ha : opcAssigned hasLong (unpackFields w).opc with
    | false => simp [decode_of_unassigned ha] at h
    | true =>
      by_cases hex : ∃ j, encode j = w
      · obtain ⟨j, hj⟩ := hex
        obtain rfl : j = i := Except.ok.inj ((decode_of_encode ha hj).symm.trans h)
        exact ⟨hj, (hassigned hj).1 ha⟩
      · simp [decode_of_no_command ha (not_exists.1 hex)] at h
  · rintro ⟨hi, hlong⟩
    exact decode_of_encode ((hassigned hi).2 hlong) hi

theorem hasLong_of_wellFormed {c : Config} {i : Instr} (h : i.wellFormed c = true) (hi : i.isLong = true) :
    c.hasLong = true := by
  cases i with
  | agl | sgl | alcgl | slbgl | slagl | bctgl | brctgl => exact h
  | _ => cases hi

/-! ### The rows of the opcode table -/

/-- The encoding of every command matches its row. -/
theorem encode_matches_row : ∀ i : Instr, Laws.EncodeRow.Statement i
  | .eadd p => Laws.EncodeRow.eadd p
  | .esub p => Laws.EncodeRow.esub p
  | .eshf p => Laws.EncodeRow.eshf p
  | .e2t p => Laws.EncodeRow.e2t p
  | .t2e p => Laws.EncodeRow.t2e p
  | .h2e p => Laws.EncodeRow.h2e p
  | .h2eF p => Laws.EncodeRow.h2eF p
  | .hclk p => Laws.EncodeRow.hclk p
  | .csrrst p => Laws.EncodeRow.csrrst p
  | .setrateF p => Laws.EncodeRow.setrateF p
  | .setrateG p => Laws.EncodeRow.setrateG p
  | .getrateF p => Laws.EncodeRow.getrateF p
  | .getrateG p => Laws.EncodeRow.getrateG p
  | .getrateT p => Laws.EncodeRow.getrateT p
  | .fetch p => Laws.EncodeRow.fetch p
  | .setclk p => Laws.EncodeRow.setclk p
  | .adjoff p => Laws.EncodeRow.adjoff p
  | .update p => Laws.EncodeRow.update p
  | .getepo p cpu => Laws.EncodeRow.getepo p cpu
  | .setepo p cpu => Laws.EncodeRow.setepo p cpu
  | .todclk p cpu => Laws.EncodeRow.todclk p cpu
  | .rdcsrSt p => Laws.EncodeRow.rdcsrSt p
  | .rdcsrBo p => Laws.EncodeRow.rdcsrBo p
  | .rdcsrTv p => Laws.EncodeRow.rdcsrTv p
  | .getcpt p cpu => Laws.EncodeRow.getcpt p cpu
  | .setcpt p cpu => Laws.EncodeRow.setcpt p cpu
  | .cptpnd p cpu => Laws.EncodeRow.cptpnd p cpu
  | .getit p cpu => Laws.EncodeRow.getit p cpu
  | .setit p cpu => Laws.EncodeRow.setit p cpu
  | .it2e p => Laws.EncodeRow.it2e p
  | .e2it p => Laws.EncodeRow.e2it p
  | .lockR p => Laws.EncodeRow.lockR p
  | .lockP p => Laws.EncodeRow.lockP p
  | .lockS p => Laws.EncodeRow.lockS p
  | .trylockR p => Laws.EncodeRow.trylockR p
  | .trylockP p => Laws.EncodeRow.trylockP p
  | .trylockS p => Laws.EncodeRow.trylockS p
  | .unlockR p => Laws.EncodeRow.unlockR p
  | .unlockP p => Laws.EncodeRow.unlockP p
  | .unlockS p => Laws.EncodeRow.unlockS p
  | .gacq p => Laws.EncodeRow.gacq p
  | .grel p => Laws.EncodeRow.grel p
  | .casW p i => Laws.EncodeRow.casW p i
  | .casG p i => Laws.EncodeRow.casG p i
  | .casQ p i r1 r3 => Laws.EncodeRow.casQ p i r1 r3
  | .casD p i r1 r3 => Laws.EncodeRow.casD p i r1 r3
  | .agl p m => Laws.EncodeRow.agl p m
  | .sgl p m => Laws.EncodeRow.sgl p m
  | .alcgl p cci => Laws.EncodeRow.alcgl p cci
  | .slbgl p cci => Laws.EncodeRow.slbgl p cci
  | .slagl p m => Laws.EncodeRow.slagl p m
  | .bctgl p => Laws.EncodeRow.bctgl p
  | .brctgl p => Laws.EncodeRow.brctgl p

theorem and_ones_two (x : BitVec 2) : x &&& 3#2 = x := BitVec.and_allOnes

theorem and_ones_four (x : BitVec 4) : x &&& 15#4 = x := BitVec.and_allOnes

theorem and_ones_eight (x : BitVec 8) : x &&& 255#8 = x := BitVec.and_allOnes

/-! Words that agree under the mask of a format have the same fields, but for the live ones (30_encoding.md R103). -/

theorem unpackFields_of_maskF0 {w v : CmdWord} (h : w &&& maskF0 = v &&& maskF0) :
    unpackFields w = { unpackFields v with p := w.getLsbD 11 } := by
  simpa [unpackFields, maskF0, BitVec.extractLsb'_and, and_ones_two, and_ones_four, and_ones_eight]
    using congrArg unpackFields h

theorem unpackFields_of_maskFC {w v : CmdWord} (h : w &&& maskFC = v &&& maskFC) :
    unpackFields w = { unpackFields v with p := w.getLsbD 11, cpu := w.extractLsb' 16 8 } := by
  simpa [unpackFields, maskFC, BitVec.extractLsb'_and, and_ones_two, and_ones_four, and_ones_eight]
    using congrArg unpackFields h

theorem unpackFields_of_maskFM {w v : CmdWord} (h : w &&& maskFM = v &&& maskFM) :
    unpackFields w = { unpackFields v with p := w.getLsbD 11, m := w.getLsbD 10 } := by
  simpa [unpackFields, maskFM, BitVec.extractLsb'_and, and_ones_two, and_ones_four, and_ones_eight]
    using congrArg unpackFields h

theorem unpackFields_of_maskFK {w v : CmdWord} (h : w &&& maskFK = v &&& maskFK) :
    unpackFields w = { unpackFields v with p := w.getLsbD 11, cci := w.extractLsb' 8 2 } := by
  simpa [unpackFields, maskFK, BitVec.extractLsb'_and, and_ones_two, and_ones_four, and_ones_eight]
    using congrArg unpackFields h

theorem unpackFields_of_maskFXP {w v : CmdWord} (h : w &&& maskFXP = v &&& maskFXP) :
    unpackFields w = { unpackFields v with
      p := w.getLsbD 11, m := w.getLsbD 10, r1 := w.extractLsb' 4 4, r3 := w.extractLsb' 0 4 } := by
  simpa [unpackFields, maskFXP, BitVec.extractLsb'_and, and_ones_two, and_ones_four, and_ones_eight]
    using congrArg unpackFields h

/-- A word that matches a row is the encoding of the row's command with the live fields of the word. -/
theorem exists_encode_of_row {w : CmdWord} {i : Instr} (h : w &&& (opcodeRow i).1 = (opcodeRow i).2) :
    ∃ j, encode j = w := by
  suffices hdec : (decodeFields (unpackFields w)).isSome = true by
    obtain ⟨j, hj⟩ := Option.isSome_iff_exists.1 hdec
    exact ⟨j, encode_eq_iff.2 (decodeFields_eq_some_iff.1 hj)⟩
  have hmask : w &&& (opcodeRow i).1 = encode i &&& (opcodeRow i).1 := h.trans (encode_matches_row i).symm
  have hfields : unpackFields (encode i) = encodeFields i := unpackFields_packFields _
  cases i with
  | getepo | setepo | todclk | getcpt | setcpt | cptpnd | getit | setit =>
    rw [unpackFields_of_maskFC hmask, hfields]; rfl
  | casW | casG | agl | sgl | slagl => rw [unpackFields_of_maskFM hmask, hfields]; rfl
  | casQ | casD => rw [unpackFields_of_maskFXP hmask, hfields]; rfl
  | alcgl | slbgl => rw [unpackFields_of_maskFK hmask, hfields]; rfl
  | _ => rw [unpackFields_of_maskF0 hmask, hfields]; rfl

/-- The words that match a row are the encodings. -/
theorem exists_row_iff (w : CmdWord) :
    (∃ i, w &&& (opcodeRow i).1 = (opcodeRow i).2) ↔ ∃ i, encode i = w :=
  ⟨fun ⟨_, h⟩ => exists_encode_of_row h, fun ⟨i, h⟩ => ⟨i, h ▸ encode_matches_row i⟩⟩

/-! ### The round trips -/

/-- Settles O1: a well-formed command is one the block has. -/
theorem decodeInvertsEncode : Obligations.DecodeInvertsEncode :=
  fun _ _ hwf => decode_eq_ok_iff.2 ⟨rfl, hasLong_of_wellFormed hwf⟩

/-- Settles O2: a word that decodes is an encoding, which matches its row. -/
theorem encodeInvertsDecode : Obligations.EncodeInvertsDecode := by
  intro hasLong w i h
  obtain ⟨rfl, hlong⟩ := decode_eq_ok_iff.1 h
  exact ⟨rfl, encode_matches_row i, hlong⟩

/-- Settles O3: each word of the table is evaluated. -/
theorem workedEncodingsDecode : Obligations.WorkedEncodingsDecode := by
  unfold Obligations.WorkedEncodingsDecode
  and_intros <;> rfl

/-! ### The checks a command's fields are put to -/

/-- The operation codes of format `FC`, whose commands name a slot (30_encoding.md R103). -/
def slotOpcodes : List Nat := [0x27, 0x28, 0x29, 0x30, 0x31, 0x32, 0x33, 0x34]

/-- The pair forms with an odd register, by their fields. -/
theorem pairEven_eq_false_iff (i : Instr) :
    i.pairEven = false ↔ (encodeFields i).opc.toNat = 0x45 ∧
      ((encodeFields i).sel.toNat = 4 ∨ (encodeFields i).sel.toNat = 5) ∧
      ((encodeFields i).r1.toNat % 2 = 1 ∨ (encodeFields i).r3.toNat % 2 = 1) := by
  cases i with
  | casQ _ _ r1 r3 | casD _ _ r1 r3 =>
    simp [Instr.pairEven, encodeFields, fieldsFX, imp_iff_not_or]
  | _ => simp [Instr.pairEven, encodeFields, fieldsFS, fieldsFC, fieldsFX, fieldsFK]

/-- The width of a compare and swap, by its form number (44_sync.md R260). -/
theorem casWidth_eq_some_iff (i : Instr) (n : Nat) :
    i.casWidth = some n ↔ (encodeFields i).opc.toNat = 0x45 ∧
      ((encodeFields i).sel.toNat = 2 ∧ n = 4 ∨ (encodeFields i).sel.toNat = 3 ∧ n = 8 ∨
        (encodeFields i).sel.toNat = 4 ∧ n = 16 ∨ (encodeFields i).sel.toNat = 5 ∧ n = 8) := by
  cases i with
  | casW | casG | casQ | casD => simp [Instr.casWidth, encodeFields, fieldsFX, eq_comm]
  | _ => simp [Instr.casWidth, encodeFields, fieldsFS, fieldsFC, fieldsFX, fieldsFK]

end Sys2Proof

namespace Sys2Proof.Machine

variable {i : Instr} {s : State}

theorem exec_of_unprivileged (hopc : opcPrivileged (encodeFields i).opc = true)
    (hp : (encodeFields i).p = false) : exec i s = .next (s.raisePgm .privilegedOperation) := by
  cases i with
  | csrrst p | setrateF p | setrateG p | setclk p | adjoff p | setepo p _ | setcpt p _ =>
    obtain rfl : p = false := hp
    rfl
  | _ => cases hopc

theorem withSlot_of_absent {c : BitVec 8} (h : s.cpus.length ≤ c.toNat) (run : State → State) :
    s.withSlot c run = s.raisePgm .specification :=
  if_neg (Nat.not_lt.2 h)

theorem exec_of_absentSlot (hopc : (encodeFields i).opc.toNat ∈ slotOpcodes)
    (hslot : s.cpus.length ≤ (encodeFields i).cpu.toNat)
    (hp : opcPrivileged (encodeFields i).opc = true → (encodeFields i).p = true) :
    exec i s = .next (s.raisePgm .specification) := by
  cases i with
  | getepo _ c | todclk _ c | getcpt _ c | cptpnd _ c | getit _ c | setit _ c =>
    exact congrArg Host.Outcome.next (withSlot_of_absent hslot _)
  | setepo p c | setcpt p c =>
    obtain rfl : p = true := hp rfl
    exact congrArg Host.Outcome.next ((if_pos rfl).trans (withSlot_of_absent hslot _))
  | _ => exact absurd hopc (by simp [encodeFields, fieldsFS, fieldsFX, fieldsFK, slotOpcodes])

theorem pairOk_eq_pairEven (p k : Bool) (r1 r3 : BitVec 4) :
    pairOk r1 r3 = (Instr.casQ p k r1 r3).pairEven := by
  rw [Bool.eq_iff_iff]
  simp [pairOk, Instr.pairEven, BitVec.getLsbD, Nat.testBit_zero]

theorem withPair_of_odd {r1 r3 : BitVec 4} (h : pairOk r1 r3 = false) (run : State → State) :
    s.withPair r1 r3 run = s.raisePgm .specification := by
  simpa [h] using withPair_cases s r1 r3 run

theorem withPair_of_even {r1 r3 : BitVec 4} (h : pairOk r1 r3 = true) (run : State → State) :
    s.withPair r1 r3 run = run s := by
  simpa [h] using withPair_cases s r1 r3 run

theorem exec_of_oddPair (h : i.pairEven = false) : exec i s = .next (s.raisePgm .specification) := by
  cases i with
  | casQ p k r1 r3 | casD p k r1 r3 =>
    exact congrArg Host.Outcome.next (withPair_of_odd ((pairOk_eq_pairEven p k r1 r3).trans h) _)
  | _ => cases h

theorem compareAndSwap_of_misaligned {n : Nat} (h : s.opAd.toNat % n ≠ 0) (k : Bool) :
    s.compareAndSwap n k = s.raisePgm .specification :=
  if_neg h

theorem exec_of_misaligned {n : Nat} (hn : i.casWidth = some n) (hpair : i.pairEven = true)
    (ha : s.opAd.toNat % n ≠ 0) : exec i s = .next (s.raisePgm .specification) := by
  cases i with
  | casW | casG =>
    obtain rfl := Option.some.inj hn
    exact congrArg Host.Outcome.next (compareAndSwap_of_misaligned ha _)
  | casQ p k r1 r3 | casD p k r1 r3 =>
    obtain rfl := Option.some.inj hn
    exact congrArg Host.Outcome.next
      ((withPair_of_even ((pairOk_eq_pairEven p k r1 r3).trans hpair) _).trans (compareAndSwap_of_misaligned ha k))
  | _ => cases hn

/-! ### The cases of R121 -/

theorem live_of_wf (h : Wf s) : s.live := h.active.trans_eq h.ports.symm

theorem runCommand_of_error {r : Rejection} (h : decode s.cfg.hasLong s.request.cw = .error r) :
    runCommand s = .next (s.raisePgm (rejectionCode r)) := by
  simpa [h] using runCommand_cases s

/-- The command the request's word encodes is the one that runs. -/
theorem runCommand_of_encode (ha : opcAssigned s.cfg.hasLong (unpackFields s.request.cw).opc = true)
    (hi : encode i = s.request.cw) : runCommand s = exec i s :=
  runCommand_of_decode (decode_of_encode ha hi)

theorem runCommand_of_unprivileged (ha : opcAssigned s.cfg.hasLong (unpackFields s.request.cw).opc = true)
    (hopc : opcPrivileged (unpackFields s.request.cw).opc = true) (hp : (unpackFields s.request.cw).p = false) :
    runCommand s = .next (s.raisePgm .privilegedOperation) := by
  by_cases hex : ∃ i, encode i = s.request.cw
  · obtain ⟨i, hi⟩ := hex
    rw [← encode_eq_iff.1 hi] at hopc hp
    rw [runCommand_of_encode ha hi, exec_of_unprivileged hopc hp]
  · have hdec := decode_of_no_command ha (not_exists.1 hex)
    simp only [hopc, hp, Bool.not_false, Bool.and_self, if_true] at hdec
    exact runCommand_of_error hdec

theorem runCommand_of_no_command (ha : opcAssigned s.cfg.hasLong (unpackFields s.request.cw).opc = true)
    (hp : opcPrivileged (unpackFields s.request.cw).opc = true → (unpackFields s.request.cw).p = true)
    (hnone : ∀ i, encode i ≠ s.request.cw) : runCommand s = .next (s.raisePgm .specification) := by
  have hdec := decode_of_no_command ha hnone
  rw [if_neg (by simpa using hp)] at hdec
  exact runCommand_of_error hdec

/-- Fields no row has, and the number of an absent slot, are rejected alike. -/
theorem runCommand_of_badFields (ha : opcAssigned s.cfg.hasLong (unpackFields s.request.cw).opc = true)
    (hp : opcPrivileged (unpackFields s.request.cw).opc = true → (unpackFields s.request.cw).p = true)
    (hbad : (∀ i, encode i ≠ s.request.cw) ∨ (unpackFields s.request.cw).opc.toNat ∈ slotOpcodes ∧
      s.cpus.length ≤ (unpackFields s.request.cw).cpu.toNat) :
    runCommand s = .next (s.raisePgm .specification) := by
  by_cases hex : ∃ i, encode i = s.request.cw
  · obtain ⟨i, hi⟩ := hex
    obtain ⟨hslot, habsent⟩ := hbad.resolve_left fun hnone => hnone i hi
    rw [← encode_eq_iff.1 hi] at hslot habsent hp
    rw [runCommand_of_encode ha hi, exec_of_absentSlot hslot habsent hp]
  · exact runCommand_of_no_command ha hp (not_exists.1 hex)

theorem opcPrivileged_eq_true_iff (opc : BitVec 8) :
    opcPrivileged opc = true ↔ opc.toNat ∈ [0x20, 0x21, 0x24, 0x25, 0x28, 0x31] :=
  List.contains_iff_mem

/-- Settles O4: the conditions of the statement, told in the fields of the word, are those of the lemmas above, one
per case of the order. -/
theorem decodeProceedsInOrder : Obligations.DecodeProceedsInOrder := by
  intro s hwf w opc sel trap unassigned unprivileged badFields oddPair misaligned
  have hs : Wf s := (wf_iff s).1 hwf
  have htrap (c : PgmCode) (h : runCommand s = .next (s.raisePgm c)) : trap c.pic :=
    ⟨_, h, onlyAnswered_raisePgm s c (live_of_wf hs), raisePgm_verdicts s c, raisePgm_draws s c⟩
  obtain ⟨hopc, hcpu, hsel, hp, -, -, hr1, hr3⟩ := unpackFields_toNat s.request.cw
  have hassigned : ¬unassigned ↔ opcAssigned s.cfg.hasLong (unpackFields s.request.cw).opc = true := by
    rw [opcAssigned_eq_true_iff, hopc]; exact not_not
  have hprivileged : unprivileged ↔
      opcPrivileged (unpackFields s.request.cw).opc = true ∧ (unpackFields s.request.cw).p = false := by
    rw [opcPrivileged_eq_true_iff, hopc, ← Bool.toNat_eq_zero, hp]
  have hbad : badFields ↔ (∀ i, encode i ≠ s.request.cw) ∨
      (unpackFields s.request.cw).opc.toNat ∈ slotOpcodes ∧
        s.cpus.length ≤ (unpackFields s.request.cw).cpu.toNat := by
    rw [hopc, hcpu, hs.slots, ← not_exists, ← exists_row_iff, not_exists]
    exact Iff.rfl
  have hodd {i : Instr} (hi : encode i = s.request.cw) : oddPair ↔ i.pairEven = false := by
    rw [pairEven_eq_false_iff, encode_eq_iff.1 hi, hopc, hsel, hr1, hr3]
    have h1 : s.request.cw.toNat / 2 ^ 4 % 16 % 2 = s.request.cw.toNat / 16 % 2 := by omega
    have h3 : s.request.cw.toNat % 16 % 2 = s.request.cw.toNat % 2 := by omega
    rw [h1, h3]
  have hmisaligned {i : Instr} (hi : encode i = s.request.cw) :
      misaligned ↔ ∃ n, i.casWidth = some n ∧ s.opAd.toNat % n ≠ 0 := by
    simp only [casWidth_eq_some_iff, encode_eq_iff.1 hi, hopc, hsel, and_assoc, or_and_right, exists_and_left,
      exists_or, exists_eq_left]
    exact Iff.rfl
  have hunprivileged (h : ¬unprivileged) (hpriv : opcPrivileged (unpackFields s.request.cw).opc = true) :
      (unpackFields s.request.cw).p = true :=
    eq_true_of_ne_false fun hfalse => h (hprivileged.2 ⟨hpriv, hfalse⟩)
  have hcommand (h : ¬badFields) : ∃ i, encode i = s.request.cw :=
    not_forall_not.1 fun hnone => h (hbad.2 (.inl hnone))
  refine ⟨fun hop => htrap .operation ?operation,
    fun hop hpriv => htrap .privilegedOperation ?privileged,
    fun hop hpriv hfield => htrap .specification ?fields,
    fun hop hpriv hfield hpair => htrap .specification ?pairing,
    fun hop hpriv hfield hpair halign => htrap .specification ?alignment,
    fun hop hpriv hfield hpair halign => ?meaning⟩
  case operation =>
    have ha : opcAssigned s.cfg.hasLong (unpackFields s.request.cw).opc = false :=
      Bool.eq_false_iff.2 fun ha => hassigned.2 ha hop
    exact runCommand_of_error (decode_of_unassigned ha)
  case privileged =>
    obtain ⟨hcode, hfalse⟩ := hprivileged.1 hpriv
    exact runCommand_of_unprivileged (hassigned.1 hop) hcode hfalse
  case fields => exact runCommand_of_badFields (hassigned.1 hop) (hunprivileged hpriv) (hbad.1 hfield)
  case pairing =>
    obtain ⟨i, hi⟩ := hcommand hfield
    rw [runCommand_of_encode (hassigned.1 hop) hi, exec_of_oddPair ((hodd hi).1 hpair)]
  case alignment =>
    obtain ⟨i, hi⟩ := hcommand hfield
    obtain ⟨n, hwidth, had⟩ := (hmisaligned hi).1 halign
    have heven : i.pairEven = true := eq_true_of_ne_false (mt (hodd hi).2 hpair)
    rw [runCommand_of_encode (hassigned.1 hop) hi, exec_of_misaligned hwidth heven had]
  case meaning =>
    obtain ⟨i, hi⟩ := hcommand hfield
    exact ⟨i, decode_of_encode (hassigned.1 hop) hi, hi, runCommand_of_encode (hassigned.1 hop) hi⟩

end Sys2Proof.Machine
end

section
/-! Proofs about family 0, ETOD arithmetic (spec/40_etod_arith.md): each command answers a number computed from its
operands, and nothing else changes. -/

namespace Sys2Proof.Machine

/-! ### The command word -/

/-- A command's word from the numbers of its fields, in the terms of the claims. -/
theorem encode_eq_commandWord (i : Instr) :
    let f := encodeFields i
    encode i = commandWord f.opc.toNat f.sel.toNat f.p f.cpu.toNat f.m f.cci.toNat f.r1.toNat f.r3.toNat :=
  (commandWord_eq_packFields (encodeFields i)).symm

/-! ### Answers -/

theorem onlyAnswered_of_value_eq (s : State) {v w : Wide} (h : v = w) (hl : s.live) :
    OnlyAnswered s (s.complete (Response.value v)) (doneWide w) :=
  h ▸ onlyAnswered_complete s _ hl

/-- A command whose whole meaning is its answer (40_etod_arith.md R140). -/
theorem answers_of_exec_eq {i : Instr} {s : State} {v w : Wide}
    (h : exec i s = .next (s.complete (Response.value v))) (hvalue : v = w) (hl : s.live) :
    ∃ t, exec i s = .next t ∧ OnlyAnswered s t (doneWide w) :=
  ⟨_, h, onlyAnswered_of_value_eq s hvalue hl⟩

theorem responseOf_complete {s : State} (r : Response) (hl : s.live) :
    (s.complete r).responseOf s.active = some r :=
  (onlyAnswered_complete s r hl).answered.response

theorem doneWide_inj {v w : Wide} : doneWide v = doneWide w ↔ v = w :=
  ⟨congrArg Response.r, congrArg doneWide⟩

/-- A bus value is the number it stands for. -/
theorem wide_eq_ofNat {v : Wide} {x : Nat} (h : v.toNat = x) : v = BitVec.ofNat 128 x := by
  rw [← h, BitVec.ofNat_toNat, BitVec.setWidth_eq]

/-! ### Sum and difference -/

theorem wide_add_eq_ofNat (a b : Wide) : a + b = BitVec.ofNat 128 ((a.toNat + b.toNat) % 2 ^ 128) :=
  wide_eq_ofNat (BitVec.toNat_add a b)

theorem wide_sub_eq_ofInt (a b : Wide) :
    a - b = BitVec.ofInt 128 (((a.toNat : Int) - b.toNat) % 2 ^ 128) := by
  apply BitVec.eq_of_toNat_eq
  have ha := a.isLt
  have hb := b.isLt
  rw [BitVec.toNat_sub, BitVec.toNat_ofInt]
  omega

/-- Settles O18: the word operations of the model are the exact ones modulo `2^128`. -/
theorem etodSumAndDifference : Obligations.EtodSumAndDifference := by
  intro p s hl
  exact ⟨encode_eq_commandWord (.eadd p),
    encode_eq_commandWord (.esub p),
    answers_of_exec_eq rfl (wide_add_eq_ofNat s.request.a s.request.b) hl,
    answers_of_exec_eq rfl (wide_sub_eq_ofInt s.request.a s.request.b) hl⟩

/-! ### The shift -/

/-- A number moved up by 128 places or more leaves nothing in 128 bits. -/
theorem mul_two_pow_mod_eq_zero (x : Nat) {k : Nat} (hk : 128 ≤ k) : x * 2 ^ k % 2 ^ 128 = 0 :=
  Nat.mod_eq_zero_of_dvd ((Nat.pow_dvd_pow 2 hk).mul_left x)

theorem toNat_etodShift_of_nonneg (a : Wide) {n : Int} (hn : 0 ≤ n) :
    (etodShift a n).toNat = a.toNat / 2 ^ n.toNat := by
  obtain ⟨k, rfl⟩ := Int.eq_ofNat_of_zero_le hn
  rw [etodShift, if_pos hn, Int.natAbs_natCast, Int.toNat_natCast]
  split
  case isTrue hk =>
    have hpow : 2 ^ 128 ≤ 2 ^ k := Nat.pow_le_pow_right (by decide) hk
    exact (Nat.div_eq_of_lt (a.isLt.trans_le hpow)).symm
  case isFalse => rw [BitVec.toNat_ushiftRight, Nat.shiftRight_eq_div_pow]

/-- Left by the amount 0 is right by it, so the formula holds there too. -/
theorem toNat_etodShift_of_nonpos (a : Wide) {n : Int} (hn : n ≤ 0) :
    (etodShift a n).toNat = a.toNat * 2 ^ (-n).toNat % 2 ^ 128 := by
  obtain ⟨k, rfl⟩ := Int.exists_eq_neg_ofNat hn
  rw [etodShift, Int.natAbs_neg, Int.natAbs_natCast, Int.neg_neg, Int.toNat_natCast]
  split
  case isTrue hk => exact (mul_two_pow_mod_eq_zero a.toNat hk).symm
  case isFalse =>
    split
    case isTrue hsign =>
      obtain rfl : k = 0 := by omega
      simpa using (Nat.mod_eq_of_lt a.isLt).symm
    case isFalse => rw [BitVec.toNat_shiftLeft, Nat.shiftLeft_eq]

/-- Settles O19: the shift divides or multiplies by a power of 2, by the sign of the amount. -/
theorem etodShiftResult : Obligations.EtodShiftResult := by
  intro p s hl
  refine ⟨encode_eq_commandWord (.eshf p), fun hn => ?right, fun hn => ?left⟩
  case right => exact answers_of_exec_eq rfl (wide_eq_ofNat (toNat_etodShift_of_nonneg s.opA hn)) hl
  case left => exact answers_of_exec_eq rfl (wide_eq_ofNat (toNat_etodShift_of_nonpos s.opA (Int.le_of_lt hn))) hl

/-! ### Shifting there and back (R145) -/

/-- Right, then left: the low `n` bits are cleared. -/
theorem toNat_etodShift_back_of_nonneg (a : Wide) {n : Int} (hn : 0 ≤ n) :
    (etodShift (etodShift a n) (-n)).toNat = a.toNat / 2 ^ n.toNat * 2 ^ n.toNat := by
  have hle : a.toNat / 2 ^ n.toNat * 2 ^ n.toNat ≤ a.toNat := Nat.div_mul_le_self _ _
  rw [toNat_etodShift_of_nonpos _ (Int.neg_nonpos_of_nonneg hn), toNat_etodShift_of_nonneg a hn, Int.neg_neg,
    Nat.mod_eq_of_lt (hle.trans_lt a.isLt)]

/-- What is left of a number of 128 bits moved up by `k` and down again. -/
theorem mul_two_pow_mod_div_two_pow (x k : Nat) : x * 2 ^ k % 2 ^ 128 / 2 ^ k = x % 2 ^ (128 - k) := by
  rcases Nat.le_total k 128 with hk | hk
  · have hsplit : 2 ^ 128 = 2 ^ (128 - k) * 2 ^ k := by rw [← Nat.pow_add, Nat.sub_add_cancel hk]
    rw [hsplit, Nat.mul_mod_mul_right, Nat.mul_div_cancel _ (Nat.two_pow_pos k)]
  · rw [mul_two_pow_mod_eq_zero x hk, Nat.zero_div, Nat.sub_eq_zero_of_le hk, Nat.pow_zero, Nat.mod_one]

/-- Left, then right: the high `-n` bits are cleared. -/
theorem toNat_etodShift_back_of_nonpos (a : Wide) {n : Int} (hn : n ≤ 0) :
    (etodShift (etodShift a n) (-n)).toNat = a.toNat % 2 ^ (128 - (-n).toNat) := by
  rw [toNat_etodShift_of_nonneg _ (Int.neg_nonneg_of_nonpos hn), toNat_etodShift_of_nonpos a hn,
    mul_two_pow_mod_div_two_pow]

theorem etodShift_back_eq_self_iff (a : Wide) {n : Int} (hn : 0 ≤ n) :
    etodShift (etodShift a n) (-n) = a ↔ a.toNat % 2 ^ n.toNat = 0 := by
  rw [← BitVec.toNat_inj, toNat_etodShift_back_of_nonneg a hn, ← Nat.dvd_iff_div_mul_eq, Nat.dvd_iff_mod_eq_zero]

/-- Settles O20: the second answer is the operand shifted there and back. -/
theorem etodShiftRoundTrip : Obligations.EtodShiftRoundTrip := by
  intro p q s u hs hu hopposite
  refine ⟨_, _, rfl, responseOf_complete _ hs, fun hbus => ⟨_, rfl, ?_⟩⟩
  have ha : u.opA = etodShift s.opA s.opEtodShift := hbus
  have hb : u.opEtodShift = -s.opEtodShift := hopposite
  rw [ha, hb]
  refine ⟨fun hn => ?low, fun hn => ?high, fun hn => ?lossless⟩
  case low => exact onlyAnswered_of_value_eq u (wide_eq_ofNat (toNat_etodShift_back_of_nonneg s.opA hn)) hu
  case high => exact onlyAnswered_of_value_eq u (wide_eq_ofNat (toNat_etodShift_back_of_nonpos s.opA hn)) hu
  case lossless =>
    rw [responseOf_complete _ hu, responseValue_eq, Option.some_inj, doneWide_inj]
    exact etodShift_back_eq_self_iff s.opA hn

/-! ### ETOD and TOD -/

/-- The two slices of R146, in their words. -/
theorem toNat_etodToTod_or (e : Wide) :
    (etodToTod e).toNat = (e.toNat / 2 ^ 64 * 2 ^ 8 % 2 ^ 64) ||| (e.toNat % 2 ^ 64 / 2 ^ 56) := by
  rw [etodToTod, BitVec.toNat_or, BitVec.toNat_shiftLeft, BitVec.toNat_ushiftRight, etodHigh_toNat, etodLow_toNat,
    Nat.shiftLeft_eq, Nat.shiftRight_eq_div_pow]

/-- Bits 119 to 56 (40_etod_arith.md R146): the slices do not overlap, so their disjunction is their sum. -/
theorem toNat_etodToTod (e : Wide) : (etodToTod e).toNat = e.toNat % 2 ^ 120 / 2 ^ 56 := by
  have hlow : e.toNat % 2 ^ 64 / 2 ^ 56 < 2 ^ 8 := by omega
  have hhigh : e.toNat / 2 ^ 64 * 2 ^ 8 % 2 ^ 64 = (e.toNat / 2 ^ 64 % 2 ^ 56) <<< 8 := by
    rw [Nat.shiftLeft_eq]; omega
  rw [toNat_etodToTod_or, hhigh, ← Nat.shiftLeft_add_eq_or_of_lt hlow, Nat.shiftLeft_eq]
  omega

theorem toNat_wideOfWord (v : Word) : (wideOfWord v).toNat = v.toNat := by
  rw [wideOfWord, BitVec.toNat_setWidth, Nat.mod_eq_of_lt (v.isLt.trans (by decide))]

theorem etodLow_wideOfWord (v : Word) : etodLow (wideOfWord v) = v := by
  apply BitVec.eq_of_toNat_eq
  rw [etodLow_toNat, toNat_wideOfWord, Nat.mod_eq_of_lt v.isLt]

/-- Settles O21: the two slices of the model are those of the rule. (The model's conversion already has the
obligation's own name.) -/
theorem etodToTodResult : Obligations.EtodToTod := by
  intro p s hl
  exact ⟨encode_eq_commandWord (.e2t p),
    answers_of_exec_eq rfl
      (wide_eq_ofNat ((toNat_wideOfWord _).trans (toNat_etodToTod_or s.request.a))) hl⟩

theorem toNat_todToEtod_words (t : Word) :
    (todToEtod t).toNat = t.toNat / 2 ^ 8 * 2 ^ 64 + t.toNat * 2 ^ 56 % 2 ^ 64 := by
  rw [todToEtod, mkEtod_toNat, BitVec.toNat_ushiftRight, BitVec.toNat_shiftLeft, Nat.shiftRight_eq_div_pow,
    Nat.shiftLeft_eq]

/-- The TOD in bits 119 to 56, zeros around it (40_etod_arith.md R147). -/
theorem toNat_todToEtod (t : Word) : (todToEtod t).toNat = t.toNat * 2 ^ 56 := by
  rw [toNat_todToEtod_words]
  omega

theorem etodToTod_todToEtod (t : Word) : etodToTod (todToEtod t) = t := by
  apply BitVec.eq_of_toNat_eq
  have ht := t.isLt
  rw [toNat_etodToTod, toNat_todToEtod]
  omega

theorem toNat_todToEtod_etodToTod (e : Wide) :
    (todToEtod (etodToTod e)).toNat = e.toNat % 2 ^ 120 / 2 ^ 56 * 2 ^ 56 := by
  rw [toNat_todToEtod, toNat_etodToTod]

/-- The bus of a command that shows the answer of the one before. -/
theorem operand_of_response {s u : State} {v : Wide} (hl : s.live)
    (h : (s.complete (Response.value v)).responseOf s.active = some (doneWide u.request.a)) :
    u.opA = v := by
  rw [responseOf_complete _ hl, responseValue_eq, Option.some_inj, doneWide_inj] at h
  exact h.symm

/-- Settles O22: the second command finds the first one's answer on its bus, and the two conversions compose. -/
theorem todToEtodAndBack : Obligations.TodToEtodAndBack := by
  intro p q s u hs hu
  have hlow : s.opALow.toNat = s.request.a.toNat % 2 ^ 64 := etodLow_toNat s.request.a
  refine ⟨encode_eq_commandWord (.t2e p),
    ⟨_, rfl, ?widened, fun hbus => answers_of_exec_eq rfl ?back hu⟩,
    ⟨_, rfl, fun hbus => answers_of_exec_eq rfl ?cleared hu⟩⟩
  case widened =>
    exact onlyAnswered_of_value_eq s (wide_eq_ofNat (hlow ▸ toNat_todToEtod_words s.opALow)) hs
  case back =>
    rw [operand_of_response hs hbus, etodToTod_todToEtod]
    exact wide_eq_ofNat ((toNat_wideOfWord _).trans hlow)
  case cleared =>
    have hword : u.opALow = etodToTod s.opA :=
      (congrArg etodLow (operand_of_response hs hbus)).trans (etodLow_wideOfWord _)
    rw [hword]
    exact wide_eq_ofNat (toNat_todToEtod_etodToTod s.request.a)

end Sys2Proof.Machine
end

section
/-! Proofs about family 1, host time (spec/41_host_time.md): the conversion of a host time, at one precision and
at two, and the host's clock. -/

namespace Sys2Proof.Machine

/-! ### The forms of an operation code -/

/-- A word with an assigned operation code that is none of the code's forms is rejected for its fields: a word that
encodes a command would be one of the forms (30_encoding.md R120). -/
theorem onlyForms_of_encode {opc : Nat} {p : Bool} {sels : List Nat}
    (hassigned : ∀ hasLong, opc ∈ opcodeNumbers hasLong)
    (hprivileged : opc ∈ [0x20, 0x21, 0x24, 0x25, 0x28, 0x31] → p = true)
    (hforms : ∀ i, (encodeFields i).opc.toNat = opc → (encodeFields i).p = p →
      ∃ sel ∈ sels, encode i = commandWord opc sel p) : OnlyForms opc p sels := by
  intro hasLong w hopc hp hother
  have hcode : (unpackFields w).opc.toNat = opc := (unpackFields_toNat w).1.trans hopc
  have hnone : ∀ i, encode i ≠ w := by
    intro i hi
    have hfields : encodeFields i = unpackFields w := encode_eq_iff.1 hi
    obtain ⟨sel, hsel, hword⟩ := hforms i (hfields ▸ hcode) (hfields ▸ hp)
    exact hother sel hsel (hi.symm.trans hword)
  have hopen : ¬(opcPrivileged (unpackFields w).opc && !(unpackFields w).p) = true := by
    rw [Bool.and_eq_true, opcPrivileged_eq_true_iff, hcode, show (unpackFields w).p = p from hp]
    rintro ⟨hcode, hfalse⟩
    simp [hprivileged hcode] at hfalse
  rw [decode_of_no_command ((opcAssigned_eq_true_iff hasLong _).2 (hcode.symm ▸ hassigned hasLong)) hnone,
    if_neg hopen]

/-- The commands with operation code `0x10` are `H2E` and `H2E.F` (41_host_time.md R167). -/
theorem onlyForms_hostTime (p : Bool) : OnlyForms 0x10 p [0, 1] := by
  refine onlyForms_of_encode (by decide) (fun h => absurd h (by decide)) fun i hopc hp => ?_
  cases i with
  | h2e q =>
    obtain rfl : q = p := hp
    exact ⟨0, by simp, encode_eq_commandWord (.h2e q)⟩
  | h2eF q =>
    obtain rfl : q = p := hp
    exact ⟨1, by simp, encode_eq_commandWord (.h2eF q)⟩
  | _ => simp [encodeFields, fieldsFS, fieldsFC, fieldsFX, fieldsFK] at hopc

/-! ### Keeping the top bits (R162, R164) -/

/-- A quotient by a power the kept bits reach down to does not see the bits below them. -/
theorem keepTopBits_ediv {k j : Nat} (h : 128 - k ≤ j) (v : Int) : keepTopBits k v / 2 ^ j = v / 2 ^ j := by
  have hlow : (2 : Int) ^ (128 - k) ≠ 0 := by positivity
  rw [keepTopBits, ← Nat.add_sub_of_le h, pow_add, ← Int.ediv_ediv_of_nonneg (by positivity),
    Int.mul_ediv_cancel _ hlow, Int.ediv_ediv_of_nonneg (by positivity)]

theorem keepTopBits_keepTopBits {k l : Nat} (h : k ≤ l) (v : Int) :
    keepTopBits k (keepTopBits l v) = keepTopBits k v := by
  rw [keepTopBits, keepTopBits_ediv (Nat.sub_le_sub_left h 128), keepTopBits]

/-- The bits cleared lie inside the 128, so a multiple of `2^128` passes through. -/
theorem keepTopBits_add_mul (k : Nat) (v q : Int) :
    keepTopBits k (v + 2 ^ 128 * q) = keepTopBits k v + 2 ^ 128 * q := by
  have hlow : (2 : Int) ^ (128 - k) ≠ 0 := by positivity
  have hsplit : (2 : Int) ^ 128 = 2 ^ (128 - k) * 2 ^ (128 - (128 - k)) := by
    rw [← pow_add, Nat.add_sub_of_le (Nat.sub_le 128 k)]
  rw [keepTopBits, keepTopBits, hsplit, mul_assoc, Int.add_mul_ediv_left _ _ hlow]
  ring

theorem keepTopBits_emod (k : Nat) (v : Int) : keepTopBits k (v % 2 ^ 128) = keepTopBits k v % 2 ^ 128 := by
  have hnonneg : 0 ≤ v % 2 ^ 128 := Int.emod_nonneg v (by decide)
  have hlt : v % 2 ^ 128 < 2 ^ 128 := Int.emod_lt_of_pos v (by decide)
  have hkept : 0 ≤ keepTopBits k (v % 2 ^ 128) := by rw [keepTopBits]; positivity
  have hle : keepTopBits k (v % 2 ^ 128) ≤ v % 2 ^ 128 := Int.ediv_mul_le _ (by positivity)
  calc keepTopBits k (v % 2 ^ 128)
      = keepTopBits k (v % 2 ^ 128) % 2 ^ 128 := (Int.emod_eq_of_lt hkept (hle.trans_lt hlt)).symm
    _ = keepTopBits k (v % 2 ^ 128 + 2 ^ 128 * (v / 2 ^ 128)) % 2 ^ 128 := by
        rw [keepTopBits_add_mul, Int.add_mul_emod_self_left]
    _ = keepTopBits k v % 2 ^ 128 := by rw [Int.emod_add_mul_ediv]

/-! ### The conversion of the operands -/

theorem hostToEtod_eq_ofInt (c : Config) (sec : Word) (nsec : BitVec 32) (fail : Bool) :
    hostToEtod c sec nsec fail =
      BitVec.ofInt 128 (keepTopBits c.precisionBits (exactTime c sec nsec fail) % 2 ^ 128) := by
  apply BitVec.eq_of_toNat_eq
  rw [hostToEtod, BitVec.toNat_ofInt, BitVec.toNat_ofInt]
  exact congrArg Int.toNat (Int.emod_emod_of_dvd _ (dvd_refl _)).symm

theorem toNat_hostToEtod (c : Config) (sec : Word) (nsec : BitVec 32) (fail : Bool) :
    ((hostToEtod c sec nsec fail).toNat : Int) =
      keepTopBits c.precisionBits (exactTime c sec nsec fail) % 2 ^ 128 := by
  rw [hostToEtod, BitVec.toNat_ofInt]
  exact Int.toNat_of_nonneg (Int.emod_nonneg _ (by decide))

theorem toNat_opAHigh (s : State) : s.opAHigh.toNat = s.request.a.toNat / 2 ^ 64 := etodHigh_toNat s.request.a

theorem toNat_opAHalf (s : State) : s.opAHalf.toNat = s.request.a.toNat % 2 ^ 32 := by
  simp [State.opAHalf, BitVec.extractLsb'_toNat]

/-- The exact time of the operands: seconds in the high half, nanoseconds in the low 32 bits (41_host_time.md
R167). -/
theorem exactTime_operands (s : State) (fail : Bool) :
    exactTime s.cfg s.opAHigh s.opAHalf fail =
      (s.cfg.epoch1970Us + (s.request.a.toNat / 2 ^ 64 * 1000000 : Nat)) * 2 ^ 68 +
        ((if fail then 0 else s.request.a.toNat % 2 ^ 32) * 2 ^ 65 / 125 : Nat) := by
  rw [exactTime, toNat_opAHigh, toNat_opAHalf]

/-- Settles O23: the model's conversion is the exact formula on the operands. -/
theorem hostFieldsConvert : Obligations.HostFieldsConvert := by
  intro p s hl
  have hvalue (fail : Bool) := hostToEtod_eq_ofInt s.cfg s.opAHigh s.opAHalf fail
  simp only [exactTime_operands] at hvalue
  exact ⟨encode_eq_commandWord (.h2e p), encode_eq_commandWord (.h2eF p), onlyForms_hostTime p,
    answers_of_exec_eq rfl (hvalue false) hl, answers_of_exec_eq rfl (hvalue true) hl⟩

/-! ### Two precisions (R165) -/

/-- The coarser of two conversions of one host time is the finer with its low bits cleared. -/
theorem toNat_hostToEtod_of_coarser {c d : Config} (hepoch : d.epoch1970Us = c.epoch1970Us)
    (hk : c.precisionBits ≤ d.precisionBits) (sec : Word) (nsec : BitVec 32) (fail : Bool) :
    ((hostToEtod c sec nsec fail).toNat : Int) =
      keepTopBits c.precisionBits (hostToEtod d sec nsec fail).toNat := by
  have htime : exactTime d sec nsec fail = exactTime c sec nsec fail := by simp only [exactTime, hepoch]
  rw [toNat_hostToEtod, toNat_hostToEtod, keepTopBits_emod, htime, keepTopBits_keepTopBits hk]

/-- With 60 bits and more, those cleared lie below bit 68, so the integer microseconds stay (41_host_time.md
R165). -/
theorem eq_clearLow_of_eq_keepTopBits {k x y : Nat} (hk : 60 ≤ k) (h : (x : Int) = keepTopBits k y) :
    x = y / 2 ^ (128 - k) * 2 ^ (128 - k) ∧ x / 2 ^ 68 = y / 2 ^ 68 := by
  have hmicro : (x : Int) / 2 ^ 68 = y / 2 ^ 68 := h ▸ keepTopBits_ediv (by omega) y
  rw [keepTopBits] at h
  exact ⟨by exact_mod_cast h, by exact_mod_cast hmicro⟩

/-- Settles O24: both commands convert the same operands, at two precisions. -/
theorem precisionTiersAgree : Obligations.PrecisionTiersAgree := by
  intro p s u hs hu hbus hepoch hk _ hmin
  have hhigh : u.opAHigh = s.opAHigh := by rw [State.opAHigh, State.opAHigh, hbus]
  have hhalf : u.opAHalf = s.opAHalf := by rw [State.opAHalf, State.opAHalf, hbus]
  have hcoarser := toNat_hostToEtod_of_coarser hepoch hk s.opAHigh s.opAHalf false
  refine ⟨_, _, _, _, rfl, rfl, onlyAnswered_complete s _ hs, onlyAnswered_complete u _ hu, ?_⟩
  rw [hhigh, hhalf]
  exact eq_clearLow_of_eq_keepTopBits hmin hcoarser

/-! ### The host's clock (R161, R168) -/

/-- The seconds and the failed flag of a sample are delivered as they are. -/
theorem deliverSample_sec_fail (c : Config) (h : HostSample) :
    (deliverSample c h).sec = h.sec ∧ (deliverSample c h).fail = h.fail := by
  rw [deliverSample]
  cases c.hostRes <;> exact ⟨rfl, rfl⟩

theorem deliverSample_of_ns {c : Config} (hres : c.hostRes = .ns) (h : HostSample) : deliverSample c h = h := by
  rw [deliverSample, hres]

/-- The nanoseconds of a microsecond clock: rounded down, they still fit their 32 bits. -/
theorem toNat_deliverSample_nsec_of_us {c : Config} (hres : c.hostRes = .us) (h : HostSample) :
    (deliverSample c h).nsec.toNat = h.nsec.toNat / 1000 * 1000 := by
  have hfits : h.nsec.toNat / 1000 * 1000 < 2 ^ 32 := (Nat.div_mul_le_self _ _).trans_lt h.nsec.isLt
  rw [deliverSample, hres]
  exact (BitVec.toNat_ofNat _ 32).trans (Nat.mod_eq_of_lt hfits)

theorem hostSample_of_queue {s : State} {h : HostSample} {rest : List HostSample} (hq : s.hostQueue = h :: rest) :
    s.hostSample = deliverSample s.cfg h := by
  rw [State.hostSample, hq]

/-- Settles O25: the answer is the conversion of the sample drawn, and the sample is the queue's head as it is
delivered. -/
theorem hostClockSamples : Obligations.HostClockSamples := by
  intro p s hl
  have hvalue : Response.value s.hostEtod = doneWide (BitVec.ofNat 128 s.hostNow) := by
    rw [hostEtod_eq, responseValue_eq]
  refine ⟨encode_eq_commandWord (.hclk p),
    ⟨_, rfl, hvalue ▸ sampledAndAnswered_complete s _ hl⟩, fun h rest hq => ?_⟩
  obtain ⟨hsec, hfail⟩ := deliverSample_sec_fail s.cfg h
  rw [hostSample_of_queue hq]
  exact ⟨hsec, hfail, fun hns => by rw [deliverSample_of_ns hns],
    fun hus => toNat_deliverSample_nsec_of_us hus h⟩

end Sys2Proof.Machine
end

section
/-! Proofs about family 2, steering and epoch (spec/42_steering.md): the steered clock, the commands that start a
new steering epoch, and the epochs of the slots. -/

namespace Sys2Proof.Machine

/-! ### The forms of the steering commands -/

/-- The words of an operation code whose commands all have the format `FS` or `F0`. -/
theorem onlyForms_of_fieldsFS {opc : BitVec 8} {p : Bool} {sels : List Nat}
    (hassigned : ∀ hasLong, opc.toNat ∈ opcodeNumbers hasLong)
    (hprivileged : opc.toNat ∈ [0x20, 0x21, 0x24, 0x25, 0x28, 0x31] → p = true)
    (hforms : ∀ i, (encodeFields i).opc = opc →
      ∃ sel, sel.toNat ∈ sels ∧ encodeFields i = fieldsFS opc sel (encodeFields i).p) :
    OnlyForms opc.toNat p sels := by
  refine onlyForms_of_encode hassigned hprivileged fun i hopc hp => ?_
  obtain ⟨sel, hsel, hfields⟩ := hforms i (BitVec.eq_of_toNat_eq hopc)
  refine ⟨sel.toNat, hsel, ?_⟩
  rw [encode, hfields, hp]
  exact (commandWord_eq_packFields (fieldsFS opc sel p)).symm

/-- The commands with operation code `0x21` are the two `SETRATE` (42_steering.md R181). -/
theorem onlyForms_setrate : OnlyForms 0x21 true [0, 1] := by
  refine onlyForms_of_fieldsFS (opc := 0x21#8) (by decide) (fun _ => rfl) fun i hopc => ?_
  cases i with
  | setrateF => exact ⟨0#4, by simp, rfl⟩
  | setrateG => exact ⟨1#4, by simp, rfl⟩
  | _ => simp [encodeFields, fieldsFS, fieldsFC, fieldsFX, fieldsFK] at hopc

/-- The commands with operation code `0x22` are the three `GETRATE` (42_steering.md R182). -/
theorem onlyForms_getrate (p : Bool) : OnlyForms 0x22 p [0, 1, 2] := by
  refine onlyForms_of_fieldsFS (opc := 0x22#8) (by decide) (fun h => absurd h (by decide)) fun i hopc => ?_
  cases i with
  | getrateF => exact ⟨0#4, by simp, rfl⟩
  | getrateG => exact ⟨1#4, by simp, rfl⟩
  | getrateT => exact ⟨2#4, by simp, rfl⟩
  | _ => simp [encodeFields, fieldsFS, fieldsFC, fieldsFX, fieldsFK] at hopc

/-- The commands with operation code `0x2C` are the three `RDCSR` (42_steering.md R192). -/
theorem onlyForms_rdcsr (p : Bool) : OnlyForms 0x2C p [0, 1, 2] := by
  refine onlyForms_of_fieldsFS (opc := 0x2C#8) (by decide) (fun h => absurd h (by decide)) fun i hopc => ?_
  cases i with
  | rdcsrSt => exact ⟨0#4, by simp, rfl⟩
  | rdcsrBo => exact ⟨1#4, by simp, rfl⟩
  | rdcsrTv => exact ⟨2#4, by simp, rfl⟩
  | _ => simp [encodeFields, fieldsFS, fieldsFC, fieldsFX, fieldsFK] at hopc

/-! ### Interrupts and answers of 64 bits -/

theorem interrupts_of_unprivileged {i : Instr} {s : State} (hopc : opcPrivileged (encodeFields i).opc = true)
    (hp : (encodeFields i).p = false) (hl : s.live) :
    ∃ t, exec i s = .next t ∧ OnlyAnswered s t (pgmOnly 0x0002#16) :=
  ⟨_, exec_of_unprivileged hopc hp, onlyAnswered_raisePgm s _ hl⟩

theorem interrupts_of_absentSlot {i : Instr} {s : State} (hopc : (encodeFields i).opc.toNat ∈ slotOpcodes)
    (hslot : s.cpus.length ≤ (encodeFields i).cpu.toNat)
    (hp : opcPrivileged (encodeFields i).opc = true → (encodeFields i).p = true) (hl : s.live) :
    ∃ t, exec i s = .next t ∧ OnlyAnswered s t (pgmOnly 0x0006#16) :=
  ⟨_, exec_of_absentSlot hopc hslot hp, onlyAnswered_raisePgm s _ hl⟩

/-- A command whose whole meaning is its 64-bit answer. -/
theorem answersWord_of_exec_eq {i : Instr} {s : State} {v w : Word}
    (h : exec i s = .next (s.complete (Response.word v))) (hvalue : v = w) (hl : s.live) :
    ∃ t, exec i s = .next t ∧ OnlyAnswered s t (doneWord w) :=
  ⟨_, h, hvalue ▸ responseWord_eq v ▸ onlyAnswered_complete s _ hl⟩

/-! ### The clock's words as integers modulo `2^64` -/

theorem word_eq_ofInt_of_toNat {a : Word} {x : Nat} (h : a.toNat = x) : a = BitVec.ofInt 64 x := by
  rw [← h, BitVec.ofInt_natCast, BitVec.ofNat_toNat, BitVec.setWidth_eq]

theorem ofInt_sub_ofInt (a b : Int) : BitVec.ofInt 64 a - BitVec.ofInt 64 b = BitVec.ofInt 64 (a - b) := by
  rw [sub_eq_iff_eq_add, ← BitVec.ofInt_add, Int.sub_add_cancel]

theorem hostHigh_eq_ofInt (s : State) : etodHigh s.hostEtod = BitVec.ofInt 64 (s.hostNow / 2 ^ 64 : Nat) :=
  word_eq_ofInt_of_toNat (hostHigh_toNat s)

theorem hostLow_eq_ofNat (s : State) : etodLow s.hostEtod = BitVec.ofNat 64 s.hostNow := by
  apply BitVec.eq_of_toNat_eq
  rw [hostLow_toNat, BitVec.toNat_ofNat]

theorem now_eq_ofInt (s : State) : s.now = BitVec.ofInt 64 s.steeredNow :=
  word_eq_ofInt_of_toNat (now_toNat s)

theorem opAHigh_eq_ofInt (s : State) : s.opAHigh = BitVec.ofInt 64 (s.request.a.toNat / 2 ^ 64 : Nat) :=
  word_eq_ofInt_of_toNat (toNat_opAHigh s)

theorem opALow_eq_ofNat (s : State) : s.opALow = BitVec.ofNat 64 s.request.a.toNat := by
  apply BitVec.eq_of_toNat_eq
  simp [State.opALow, BitVec.extractLsb'_toNat]

theorem opAHalf_eq_ofNat (s : State) : s.opAHalf = BitVec.ofNat 32 s.request.a.toNat := by
  apply BitVec.eq_of_toNat_eq
  rw [toNat_opAHalf, BitVec.toNat_ofNat]

/-! ### The steering formula (R178) -/

/-- `Steer(u)` with the elapsed time a signed 64-bit reading. -/
theorem steer_eq_ofInt (c : Config) (x : Csr) (u : Word) :
    steer c x u = BitVec.ofInt 64 (((u.toNat + x.baseOffset.toNat) % 2 ^ 64 : Nat) +
      (BitVec.ofInt 64 (((u.toNat + x.baseOffset.toNat) % 2 ^ 64 : Nat) - (x.startTime.toNat : Int))).toInt *
        (x.fineRate.toInt + x.grossRate.toInt) / 2 ^ c.rateFracBits) := by
  rw [toInt_ofInt_bmod]
  exact word_eq_ofInt _ _ (steer_toNat c x u)

theorem now_eq_steer (s : State) : s.now = steer s.cfg s.csr (etodHigh s.hostEtod) := by
  apply BitVec.eq_of_toNat_eq
  rw [now_toNat, State.steeredNow, steer_eq, hostHigh_toNat]

/-- A steering epoch begun at the value `w` and the host value `u`: a later host value `v` is steered by its signed
distance from `u` and the adjustment of that distance. -/
theorem steer_newEpoch (c : Config) (w u v : Word) (fine gross : BitVec 32) :
    steer c ⟨w, w - u, fine, gross⟩ v = w + BitVec.ofInt 64
      ((v - u).toInt + (v - u).toInt * (fine.toInt + gross.toInt) / 2 ^ c.rateFracBits) := by
  have hbase : v + (w - u) = w + (v - u) := by ring
  have helapsed : w + (v - u) - w = v - u := by ring
  simp only [steer, steerAdjust, totalRate, wordOfInt, hbase, helapsed]
  rw [BitVec.ofInt_add, BitVec.ofInt_toInt, add_assoc]
  push_cast
  rfl

/-- At its own instant an epoch answers the value it was begun at, whatever the rates. -/
theorem steer_newEpoch_self (c : Config) (w u : Word) (fine gross : BitVec 32) :
    steer c ⟨w, w - u, fine, gross⟩ u = w := by
  rw [steer_newEpoch]
  simp

/-! ### `FETCH` (R179, R183) -/

theorem exec_fetch (p : Bool) (s : State) :
    exec (.fetch p) s = .next (s.sampled.complete (doneWide s.fetched)) := rfl

/-- The instant of a fetch is that of another command when the configuration and the sample are. -/
theorem hostEtod_congr {s g : State} (hcfg : g.cfg = s.cfg) (hsample : g.hostSample = s.hostSample) :
    g.hostEtod = s.hostEtod := by
  rw [State.hostEtod, State.hostEtod, hcfg, hsample]

/-- The answer of a fetch, put together from its two words. -/
theorem answered_fetch {g : State} {high low : Word} (hhigh : steer g.cfg g.csr (etodHigh g.hostEtod) = high)
    (hlow : etodLow g.hostEtod = low) (hl : g.live) :
    Answered g (g.sampled.complete (doneWide g.fetched)) (doneWide (high ++ low)) := by
  subst hhigh hlow
  exact (sampledAndAnswered_complete g _ hl).answered

/-- Settles O26: the steered value is the formula's integer, and the low word is the host's. -/
theorem fetchAnswersTheSteeredClock : Obligations.FetchAnswersTheSteeredClock := by
  intro p s hl
  refine ⟨encode_eq_commandWord (.fetch p), ?_⟩
  intro u b el rt high low
  have hhigh : steer s.cfg s.csr (etodHigh s.hostEtod) = high := by
    rw [steer_eq_ofInt, hostHigh_toNat]
  have hlow : etodLow s.hostEtod = low :=
    BitVec.eq_of_toNat_eq (by rw [hostLow_toNat, BitVec.toNat_ofNat, Nat.mod_mod])
  have hvalue : s.fetched = high ++ low := by rw [State.fetched, hhigh, hlow, mkEtod]
  exact ⟨_, exec_fetch p s, hvalue ▸ sampledAndAnswered_complete s _ hl⟩

/-! ### The reads (R182, R192) -/

/-- Settles O27: each read answers what it reads; the two sign extensions are the integers' words. -/
theorem steeringReadsAnswer : Obligations.SteeringReadsAnswer := by
  intro p s hl
  exact ⟨encode_eq_commandWord (.getrateF p), encode_eq_commandWord (.getrateG p),
    encode_eq_commandWord (.getrateT p), encode_eq_commandWord (.rdcsrSt p),
    encode_eq_commandWord (.rdcsrBo p), encode_eq_commandWord (.rdcsrTv p),
    onlyForms_getrate p, onlyForms_rdcsr p,
    answersWord_of_exec_eq rfl rfl hl, answersWord_of_exec_eq rfl rfl hl, answersWord_of_exec_eq rfl rfl hl,
    answersWord_of_exec_eq rfl rfl hl, answersWord_of_exec_eq rfl rfl hl, answers_of_exec_eq rfl rfl hl⟩

/-! ### The writers of the steering state -/

/-- A command that draws its sample, writes the steering state and ends. -/
theorem steeringWritten_complete (s : State) (x : Csr) (hl : s.live) :
    SteeringWritten s ((s.sampled.setCsr x).complete Response.ok) x where
  answered := answered_of_ports (by simp [responseOk_eq]) hl
  csr := by simp
  todValue := by simp
  slots := by simp
  glock := by simp
  storage := storageKept_of_eq (by simp) (by simp)
  cfg := by simp
  draw := ⟨by simp, by simp⟩

theorem exec_csrrst (s : State) : exec (.csrrst true) s =
    .next ((s.sampled.setCsr ⟨etodHigh s.hostEtod, 0#64, 0#32, 0#32⟩).complete Response.ok) := rfl

theorem exec_setrateF (s : State) : exec (.setrateF true) s =
    .next ((s.sampled.setCsr ⟨s.now, s.now - etodHigh s.hostEtod, s.opAHalf, s.csr.grossRate⟩).complete
      Response.ok) := rfl

theorem exec_setrateG (s : State) : exec (.setrateG true) s =
    .next ((s.sampled.setCsr ⟨s.now, s.now - etodHigh s.hostEtod, s.csr.fineRate, s.opAHalf⟩).complete
      Response.ok) := rfl

theorem exec_setclk (s : State) : exec (.setclk true) s =
    .next ((s.sampled.setCsr ⟨s.opAHigh, s.opAHigh - etodHigh s.hostEtod, s.csr.fineRate, s.csr.grossRate⟩).complete
      Response.ok) := rfl

theorem exec_adjoff (s : State) : exec (.adjoff true) s =
    .next ((s.sampled.setCsr ⟨s.now + s.opALow, s.now + s.opALow - etodHigh s.hostEtod, s.csr.fineRate,
      s.csr.grossRate⟩).complete Response.ok) := rfl

/-- The effect of a command that draws its sample and writes the steering state. -/
theorem writesSteering_of_exec_eq {i : Instr} {s : State} {x y : Csr}
    (h : exec i s = .next ((s.sampled.setCsr x).complete Response.ok)) (hvalue : x = y) (hl : s.live) :
    ∃ t, exec i s = .next t ∧ SteeringWritten s t y :=
  ⟨_, h, hvalue ▸ steeringWritten_complete s x hl⟩

/-- The steering state after such a command. -/
theorem csr_of_exec_eq {i : Instr} {s t : State} {x : Csr}
    (h : exec i s = .next ((s.sampled.setCsr x).complete Response.ok)) (ht : exec i s = .next t) : t.csr = x := by
  obtain rfl := Host.Outcome.next.inj (h.symm.trans ht)
  simp

/-- Settles O28: the epoch starts at the host's high word. -/
theorem steeringReset : Obligations.SteeringReset := by
  intro s hl
  exact ⟨encode_eq_commandWord (.csrrst true),
    writesSteering_of_exec_eq (exec_csrrst s) (by rw [hostHigh_eq_ofInt, BitVec.ofInt_natCast]) hl,
    interrupts_of_unprivileged rfl rfl hl⟩

/-- Settles O29: the epoch starts at the value steered under the rates as they were, then one rate is replaced. -/
theorem rateIsSet : Obligations.RateIsSet := by
  intro s hl
  refine ⟨encode_eq_commandWord (.setrateF true), encode_eq_commandWord (.setrateG true), onlyForms_setrate, ?_⟩
  intro rate start offset
  have hrate : s.opAHalf = rate := opAHalf_eq_ofNat s
  have hstart : s.now = start := (now_eq_ofInt s).trans (BitVec.ofInt_natCast _ _)
  have hoffset : s.now - etodHigh s.hostEtod = offset := by
    rw [now_eq_ofInt, hostHigh_eq_ofInt, ofInt_sub_ofInt]
  exact ⟨writesSteering_of_exec_eq (exec_setrateF s) (by rw [hoffset, hstart, hrate]) hl,
    writesSteering_of_exec_eq (exec_setrateG s) (by rw [hoffset, hstart, hrate]) hl,
    interrupts_of_unprivileged rfl rfl hl, interrupts_of_unprivileged rfl rfl hl⟩

/-- Settles O30: the epoch starts at the operand's high word. -/
theorem clockIsSet : Obligations.ClockIsSet := by
  intro s hl
  refine ⟨encode_eq_commandWord (.setclk true), ?_⟩
  intro wanted
  have hstart : s.opAHigh = BitVec.ofInt 64 wanted := opAHigh_eq_ofInt s
  refine ⟨writesSteering_of_exec_eq (exec_setclk s) ?_ hl, interrupts_of_unprivileged rfl rfl hl⟩
  rw [hstart, hostHigh_eq_ofInt, ofInt_sub_ofInt, BitVec.ofInt_natCast]

/-- Settles O31: sum and difference of words are those of the integers they stand for. -/
theorem offsetIsAdjusted : Obligations.OffsetIsAdjusted := by
  intro s hl
  refine ⟨encode_eq_commandWord (.adjoff true), ?_⟩
  intro d
  have hamount : s.opALow = BitVec.ofInt 64 d := (BitVec.ofInt_toInt).symm
  refine ⟨writesSteering_of_exec_eq (exec_adjoff s) ?_ hl, interrupts_of_unprivileged rfl rfl hl⟩
  rw [hamount, now_eq_ofInt, hostHigh_eq_ofInt, ← BitVec.ofInt_add, ofInt_sub_ofInt]

/-! ### The clock at and after a change (R186, R189) -/

/-- Settles O32: each writer begins an epoch at its own host instant, where the new rates have no elapsed time to
act on. -/
theorem steeringIsContinuous : Obligations.SteeringIsContinuous := by
  intro p q s t f g _ hf hg hfcfg hfcsr hfsample hgcfg hgcsr hgsample
  have hfhost : f.hostEtod = s.hostEtod := hostEtod_congr hfcfg hfsample
  have hghost : g.hostEtod = s.hostEtod := hostEtod_congr hgcfg hgsample
  have hbefore : steer f.cfg f.csr (etodHigh f.hostEtod) = s.now := by
    rw [hfcfg, hfcsr, hfhost, now_eq_steer]
  have hafter (w : Word) (fine gross : BitVec 32)
      (h : t.csr = ⟨w, w - etodHigh s.hostEtod, fine, gross⟩) :
      steer g.cfg g.csr (etodHigh g.hostEtod) = w := by
    rw [hgcsr, h, hghost, steer_newEpoch_self]
  exact ⟨_, _, _, _, _, exec_fetch p f, exec_fetch q g,
    answered_fetch hbefore (congrArg etodLow hfhost) hf, answered_fetch rfl (congrArg etodLow hghost) hg,
    fun h => hafter _ _ _ (csr_of_exec_eq (exec_setrateF s) h),
    fun h => hafter _ _ _ (csr_of_exec_eq (exec_setrateG s) h),
    fun h => hafter _ _ _ (csr_of_exec_eq (exec_adjoff s) h)⟩

/-- Settles O33: the fetch is a reading of the epoch the command began. -/
theorem setClockIsExact : Obligations.SetClockIsExact := by
  intro p s t g _ hg hset hcfg hcsr wanted dist rt low
  have hdist : (etodHigh g.hostEtod - etodHigh s.hostEtod).toInt = dist := by
    rw [toInt_sub_bmod, hostHigh_toNat, hostHigh_toNat]
  have hepoch : g.csr = ⟨wanted, wanted - etodHigh s.hostEtod, s.csr.fineRate, s.csr.grossRate⟩ :=
    hcsr.trans (csr_of_exec_eq (exec_setclk s) hset)
  refine ⟨_, exec_fetch p g, answered_fetch ?later (hostLow_eq_ofNat g) hg, fun hsample =>
    (answered_fetch ?same (hostLow_eq_ofNat g) hg).response⟩
  case later => rw [hepoch, steer_newEpoch, hdist, hcfg]
  case same => rw [hepoch, hostEtod_congr hcfg hsample, steer_newEpoch_self]

/-! ### `UPDATE` (R187) -/

/-- Settles O34: the latch takes the clock and the slots' samples in one write; that no other command writes the
clock register is a clause of who writes the clock. -/
theorem updateLatchesTheClock : Obligations.UpdateLatchesTheClock := by
  intro p s hl
  have hclock : Response.value s.fetched = doneWide s.fetchedNow := by rw [fetched_eq, responseValue_eq]
  have hsample : cptSample s.cfg.cptShift s.now = timerSampled s.cfg.cptShift s.steeredNow := by
    funext x
    rw [cptSample_eq, now_toNat]
  refine ⟨encode_eq_commandWord (.update p), s.latchClock.complete (Response.value s.fetched), rfl,
    hclock ▸ answered_of_ports (by simp) hl, ?register, ?slots, by simp, by simp,
    storageKept_of_eq (by simp) (by simp), by simp, ⟨by simp, by simp⟩, fun i u v h => ?others⟩
  case register => rw [complete_todValue, latchClock_todValue, fetched_eq]
  case slots => rw [complete_cpus, latchClock_cpus, hsample]
  case others =>
    obtain ⟨-, -, -, htod, -⟩ := onlyTheirCommandsWriteTheClock i u v h
    exact htod

/-! ### The epochs of the slots (R188, R190, R191) -/

theorem withSlot_of_present {s : State} {c : BitVec 8} {x : Cpu} (h : s.cpus[c.toNat]? = some x)
    (run : State → State) : s.withSlot c run = run s :=
  if_pos (List.getElem?_eq_some_iff.1 h).1

theorem slot_of_present {s : State} {c : BitVec 8} {x : Cpu} (h : s.cpus[c.toNat]? = some x) : s.slot c = x := by
  rw [State.slot, List.getD_eq_getElem?_getD, h, Option.getD_some]

/-- A change of a slot the block has puts the changed slot in its place. -/
theorem modify_of_present {s : State} {c : BitVec 8} {x : Cpu} (h : s.cpus[c.toNat]? = some x) (f : Cpu → Cpu) :
    s.cpus.modify c.toNat f = s.cpus.set c.toNat (f x) := by
  rw [List.modify_eq_set, h]
  rfl

/-- A command that changes one slot, draws nothing and ends. -/
theorem slotsWritten_onSlot {s : State} {c : BitVec 8} {x : Cpu} (h : s.cpus[c.toNat]? = some x) (f : Cpu → Cpu)
    (hl : s.live) :
    SlotsWritten s ((s.onSlot c f).complete Response.ok) (s.cpus.set c.toNat (f x)) doneEmpty where
  answered := answered_of_ports (by simp [responseOk_eq]) hl
  clock := ⟨by simp, by simp⟩
  slots := by simp [modify_of_present h]
  glock := by simp
  storage := storageKept_of_eq (by simp) (by simp)
  cfg := by simp

/-- The CPU-visible clock of a slot as a number (42_steering.md R191). -/
theorem cpuClock_eq_ofNat {s : State} {c : BitVec 8} {x : Cpu} (h : s.cpus[c.toNat]? = some x) :
    s.cpuClock c = BitVec.ofNat 64
      ((s.todValue.toNat / 2 ^ 64 &&& s.cfg.todClockMask.toNat) + x.todEpoch.toNat) := by
  apply BitVec.eq_of_toNat_eq
  rw [State.cpuClock, slot_of_present h, BitVec.toNat_add, BitVec.toNat_and, etodHigh_toNat, BitVec.toNat_ofNat]

/-- Settles O35: by whether the block has the slot. -/
theorem epochCommands : Obligations.EpochCommands := by
  intro p c s hl
  refine ⟨encode_eq_commandWord (.getepo p c), encode_eq_commandWord (.setepo p c),
    encode_eq_commandWord (.todclk p c), fun x hx => ⟨?read, ?write, ?clock⟩, fun habsent => ?absent,
    interrupts_of_unprivileged rfl rfl hl⟩
  case read =>
    exact answersWord_of_exec_eq (congrArg Host.Outcome.next (withSlot_of_present hx _))
      (congrArg Cpu.todEpoch (slot_of_present hx)) hl
  case write =>
    refine ⟨_, congrArg Host.Outcome.next ((if_pos rfl).trans (withSlot_of_present hx _)), ?_, by simp, by simp⟩
    rw [opALow_eq_ofNat]
    exact slotsWritten_onSlot hx (setTodEpoch _) hl
  case clock =>
    exact answersWord_of_exec_eq (congrArg Host.Outcome.next (withSlot_of_present hx _)) (cpuClock_eq_ofNat hx) hl
  case absent =>
    exact ⟨interrupts_of_absentSlot (by simp [encodeFields, fieldsFC, slotOpcodes]) habsent
        nofun hl,
      interrupts_of_absentSlot (by simp [encodeFields, fieldsFC, slotOpcodes]) habsent (fun _ => rfl) hl,
      interrupts_of_absentSlot (by simp [encodeFields, fieldsFC, slotOpcodes]) habsent
        nofun hl⟩

end Sys2Proof.Machine
end

section
/-! Proofs about family 3, the timers (spec/43_timers.md): the readings and the latch of a CPU timer, the ticks of an
interval timer, and both timers across a jump of the clock. -/

namespace Sys2Proof.Machine

/-! ### The readings and samples of a command (R212, R219) -/

theorem now_eq_ofNat (s : State) : s.now = BitVec.ofNat 64 s.steeredNow :=
  (now_eq_ofInt s).trans (BitVec.ofInt_natCast _ _)

theorem cptVal_now (s : State) (x : Cpu) :
    cptVal s.cfg.cptShift s.now x = BitVec.ofNat 64 (timerReading s.cfg.cptShift x.cptBase s.steeredNow) := by
  rw [← now_toNat, ← cptVal_toNat, BitVec.ofNat_toNat, BitVec.setWidth_eq]

theorem cptSample_now (s : State) (x : Cpu) :
    cptSample s.cfg.cptShift s.now x = timerSampled s.cfg.cptShift s.steeredNow x := by
  rw [cptSample_eq, now_toNat]

/-! ### Commands that draw a sample and change one slot -/

theorem onSlot_onSlot (s : State) (c : BitVec 8) (f g : Cpu → Cpu) :
    (s.onSlot c f).onSlot c g = s.onSlot c (g ∘ f) :=
  congrArg (fun l => { s with cpus := l }) (List.modify_modify_eq f g _ _)

/-- The slots after such a command. -/
theorem slotsWritten_sampled_onSlot {s : State} {c : BitVec 8} {x : Cpu} (hx : s.cpus[c.toNat]? = some x)
    (f : Cpu → Cpu) (r : Response) (hl : s.live) :
    SlotsWritten s ((s.sampled.onSlot c f).complete r) (s.cpus.set c.toNat (f x)) r where
  answered := answered_of_ports (by simp) hl
  clock := ⟨by simp, by simp⟩
  slots := by simp [modify_of_present hx]
  glock := by simp
  storage := storageKept_of_eq (by simp) (by simp)
  cfg := by simp

/-- The effect of such a command on a slot the block has. -/
theorem writesSlot_of_exec_eq {i : Instr} {s : State} {c : BitVec 8} {x y : Cpu} {f : Cpu → Cpu} {r r' : Response}
    (h : exec i s = .next ((s.sampled.onSlot c f).complete r)) (hx : s.cpus[c.toNat]? = some x)
    (hslot : f x = y) (hanswer : r = r') (hl : s.live) :
    ∃ t, exec i s = .next t ∧ SlotsWritten s t (s.cpus.set c.toNat y) r' ∧ OneHostDraw s t :=
  ⟨_, h, hslot ▸ hanswer ▸ slotsWritten_sampled_onSlot hx f r hl, by simp, by simp⟩

/-! ### The CPU timer's commands (R213 to R215) -/

section
variable {s : State} {c : BitVec 8} {x : Cpu}

theorem exec_getcpt (p : Bool) (hx : s.cpus[c.toNat]? = some x) : exec (.getcpt p c) s =
    .next ((s.sampled.onSlot c (cptSample s.cfg.cptShift s.now)).complete
      (doneWord (cptVal s.cfg.cptShift s.now x))) := by
  rw [← responseWord_eq, ← slot_of_present hx]
  exact congrArg Host.Outcome.next (withSlot_of_present hx _)

theorem exec_setcpt (hx : s.cpus[c.toNat]? = some x) : exec (.setcpt true c) s =
    .next ((s.sampled.onSlot c (setCptSampled s.cfg.cptShift s.now s.opALow)).complete doneEmpty) :=
  congrArg Host.Outcome.next ((if_pos rfl).trans (withSlot_of_present hx _))

theorem exec_cptpnd (p : Bool) (hx : s.cpus[c.toNat]? = some x) : exec (.cptpnd p c) s =
    .next ((s.sampled.onSlot c (clearPending ∘ cptSample s.cfg.cptShift s.now)).complete
      (doneWide ((BitVec.ofBool (cptSample s.cfg.cptShift s.now x).cptPending).setWidth 128))) := by
  rw [← onSlot_onSlot, ← slot_of_present hx]
  exact congrArg Host.Outcome.next (withSlot_of_present hx _)

end

/-- Settles O37: by whether the block has the slot. -/
theorem cpuTimerIsRead : Obligations.CpuTimerIsRead := by
  intro p c s hl
  refine ⟨encode_eq_commandWord (.getcpt p c), fun x hx => ?present, fun habsent => ?absent⟩
  case present =>
    exact writesSlot_of_exec_eq (exec_getcpt p hx) hx (cptSample_now s x) (congrArg doneWord (cptVal_now s x)) hl
  case absent =>
    exact interrupts_of_absentSlot (by simp [encodeFields, fieldsFC, slotOpcodes]) habsent nofun hl

/-- The base `SETCPT` writes, in exact integers: the division floors (R214). -/
theorem now_add_asr64 (s : State) (v : Word) (k : Nat) :
    s.now + asr64 v k = BitVec.ofInt 64 (s.steeredNow + v.toInt / 2 ^ k) := by
  rw [now_eq_ofInt, asr64, wordOfInt, ← BitVec.ofInt_add, Int.natCast_pow, Nat.cast_ofNat]

theorem setCptSampled_now (s : State) (v : Word) (x : Cpu) :
    setCptSampled s.cfg.cptShift s.now v x = timerSampled s.cfg.cptShift s.steeredNow
      { x with cptBase := BitVec.ofInt 64 (s.steeredNow + v.toInt / 2 ^ s.cfg.cptShift) } := by
  rw [setCptSampled, cptSample_now, setCptBase, now_add_asr64]

/-- Settles O38: by whether the block has the slot, the privilege before it. -/
theorem cpuTimerIsSet : Obligations.CpuTimerIsSet := by
  intro c s hl
  refine ⟨encode_eq_commandWord (.setcpt true c), fun x hx => ?present, fun habsent => ?absent,
    interrupts_of_unprivileged rfl rfl hl⟩
  case present => exact writesSlot_of_exec_eq (exec_setcpt hx) hx (setCptSampled_now s _ x) rfl hl
  case absent =>
    exact interrupts_of_absentSlot (by simp [encodeFields, fieldsFC, slotOpcodes]) habsent (fun _ => rfl) hl

theorem setWidth_ofBool (b : Bool) : (BitVec.ofBool b).setWidth 128 = BitVec.ofNat 128 b.toNat := by
  cases b <;> rfl

/-- Settles O39: the answer is the latch after the sample and before it is cleared. -/
theorem pendingIsFetchedAndReset : Obligations.PendingIsFetchedAndReset := by
  intro p c s hl
  refine ⟨encode_eq_commandWord (.cptpnd p c), fun x hx => ?present, fun habsent => ?absent⟩
  case present =>
    refine writesSlot_of_exec_eq (exec_cptpnd p hx) hx (congrArg clearPending (cptSample_now s x)) ?_ hl
    rw [cptSample_now, setWidth_ofBool]
  case absent =>
    exact interrupts_of_absentSlot (by simp [encodeFields, fieldsFC, slotOpcodes]) habsent nofun hl

/-! ### Reading back (R214) -/

theorem asr64_eq_sshiftRight (v : Word) (k : Nat) : asr64 v k = v.sshiftRight k := by
  rw [asr64, wordOfInt, BitVec.sshiftRight, Int.shiftRight_eq_div_pow]

/-- Shifting back loses the copies of the sign, so that a negative value comes back as a positive one does. -/
theorem asr64_shiftLeft (v : Word) (k : Nat) : asr64 v k <<< k = v >>> k <<< k := by
  rw [asr64_eq_sshiftRight]
  ext j hj
  by_cases hk : j < k
  · simp [hk]
  · have hback : k + (j - k) = j := by omega
    simp [BitVec.getElem_sshiftRight, hback, hj]

theorem toNat_asr64_shiftLeft (v : Word) (k : Nat) : (asr64 v k <<< k).toNat = v.toNat / 2 ^ k * 2 ^ k := by
  rw [asr64_shiftLeft, BitVec.toNat_shiftLeft, BitVec.toNat_ushiftRight, Nat.shiftRight_eq_div_pow,
    Nat.shiftLeft_eq, Nat.mod_eq_of_lt ((Nat.div_mul_le_self _ _).trans_lt v.isLt)]

/-- At the instant it was set the timer reads the value shifted there and back. -/
theorem cptVal_setCptSampled (k : Nat) (now v : Word) (x : Cpu) :
    cptVal k now (setCptSampled k now v x) = asr64 v k <<< k := by
  rw [cptVal, setCptSampled_cptBase, add_sub_cancel_left]

theorem answers_getcpt {s : State} {c : BitVec 8} {x : Cpu} (p : Bool) (hx : s.cpus[c.toNat]? = some x)
    (hl : s.live) : ∃ t, exec (.getcpt p c) s = .next t ∧
      Answered s t (doneWord (cptVal s.cfg.cptShift s.now x)) :=
  ⟨_, exec_getcpt p hx, (slotsWritten_sampled_onSlot hx _ _ hl).answered⟩

/-- The instant of a command is that of another when the configuration, the steering and the sample are. -/
theorem now_congr {s g : State} (hcfg : g.cfg = s.cfg) (hcsr : g.csr = s.csr)
    (hsample : g.hostSample = s.hostSample) : g.now = s.now := by
  rw [now_eq_steer, now_eq_steer, hostEtod_congr hcfg hsample, hcfg, hcsr]

/-- Settles O40: the read finds the slot as the write left it, at the same instant. -/
theorem cpuTimerReadsBack : Obligations.CpuTimerReadsBack := by
  intro p c s t g hs hg hc hset hcpus hcsr hcfg hsample
  have hx : s.cpus[c.toNat]? = some s.cpus[c.toNat] := List.getElem?_eq_getElem hc
  obtain rfl := Host.Outcome.next.inj ((exec_setcpt hx).symm.trans hset)
  have hslot : g.cpus[c.toNat]? = some (setCptSampled s.cfg.cptShift s.now s.opALow s.cpus[c.toNat]) := by
    rw [hcpus, (slotsWritten_sampled_onSlot hx _ _ hs).slots, List.getElem?_set_self hc]
  obtain ⟨u, hread, hanswer⟩ := answers_getcpt p hslot hg
  have hlow : s.opALow.toNat = s.request.a.toNat % 2 ^ 64 := etodLow_toNat s.request.a
  rw [hcfg, now_congr hcfg hcsr hsample, cptVal_setCptSampled, doneWord, toNat_asr64_shiftLeft, hlow] at hanswer
  exact ⟨u, hread, hanswer⟩

/-! ### The sign-flip latch (R219) -/

section
variable {shift : Nat} {n : Word} {c : Cpu}

theorem cptSample_of_nonneg (h : timerReading shift c.cptBase n.toNat < 2 ^ 63) :
    cptSample shift n c = { c with cptArmed := true } := by
  rw [cptSample_eq, timerSampled, if_pos h]

theorem cptSample_of_neg_of_armed (h : 2 ^ 63 ≤ timerReading shift c.cptBase n.toNat) (ha : c.cptArmed = true) :
    cptSample shift n c = { c with cptPending := true, cptArmed := false } := by
  rw [cptSample_eq, timerSampled, if_neg h.not_gt, if_pos ha]

theorem cptSample_of_neg_of_disarmed (h : 2 ^ 63 ≤ timerReading shift c.cptBase n.toNat) (ha : c.cptArmed = false) :
    cptSample shift n c = c := by
  rw [cptSample_eq, timerSampled, if_neg h.not_gt, if_neg (by simp [ha])]

end

/-- The slot after a run of samples. -/
def cptSamples (shift : Nat) (samples : List Word) (c : Cpu) : Cpu :=
  samples.foldl (fun x n => cptSample shift n x) c

theorem cptSamples_cons (shift : Nat) (n : Word) (samples : List Word) (c : Cpu) :
    cptSamples shift (n :: samples) c = cptSamples shift samples (cptSample shift n c) := rfl

theorem cptSamples_cptBase (shift : Nat) (samples : List Word) (c : Cpu) :
    (cptSamples shift samples c).cptBase = c.cptBase := by
  induction samples generalizing c with
  | nil => rfl
  | cons n samples ih => rw [cptSamples_cons, ih, cptSample_cptBase]

theorem cptSamples_of_disarmed {shift : Nat} {samples : List Word} {c : Cpu}
    (h : ∀ n ∈ samples, 2 ^ 63 ≤ timerReading shift c.cptBase n.toNat) (ha : c.cptArmed = false) :
    cptSamples shift samples c = c := by
  induction samples with
  | nil => rfl
  | cons n samples ih =>
    obtain ⟨hn, hrest⟩ := List.forall_mem_cons.1 h
    rw [cptSamples_cons, cptSample_of_neg_of_disarmed hn ha, ih hrest]

/-- The first sample latches the crossing and disarms the slot, so that the rest leave it. -/
theorem cptSamples_of_armed {shift : Nat} {samples : List Word} {c : Cpu}
    (h : ∀ n ∈ samples, 2 ^ 63 ≤ timerReading shift c.cptBase n.toNat) (ha : c.cptArmed = true)
    (hne : samples ≠ []) : cptSamples shift samples c = { c with cptPending := true, cptArmed := false } := by
  cases samples with
  | nil => exact absurd rfl hne
  | cons n samples =>
    obtain ⟨hn, hrest⟩ := List.forall_mem_cons.1 h
    rw [cptSamples_cons, cptSample_of_neg_of_armed hn ha]
    exact cptSamples_of_disarmed hrest rfl

/-- Settles O41: no sample moves the base, so that the readings stay those of the slot's own base. -/
theorem aCrossingIsLatchedOnce : Obligations.ACrossingIsLatchedOnce := by
  intro shift c samples hneg after
  have hafter : after = cptSamples shift samples c := rfl
  have hbase : after.cptBase = c.cptBase := cptSamples_cptBase shift samples c
  refine ⟨fun ha hne => ?armed, fun ha => cptSamples_of_disarmed hneg ha, fun n hn => ?rearmed⟩
  case armed =>
    have hlatched := hafter.trans (cptSamples_of_armed hneg ha hne)
    refine ⟨hlatched, cptSamples_of_disarmed ?_ (congrArg Cpu.cptArmed hlatched)⟩
    simpa only [hbase] using hneg
  case rearmed => exact cptSample_of_nonneg (hbase.symm ▸ hn)

/-! ### Ticks (R217, R218) -/

theorem exec_it2e (p : Bool) (s : State) :
    exec (.it2e p) s = .next (s.complete (Response.word (wordOfInt (ticksToHu s.opAHalf)))) := rfl

/-- Inside the range the ticks are the truncated quotient's low 32 bits. -/
theorem ticksOf_of_inRange (s : State) {d : Word} {v : Int} (hd : d.toInt = v)
    (h : v.natAbs ≤ (2 ^ 63 - 1) / 3) :
    s.ticksOf d = (BitVec.ofInt 32 ((v * 3).tdiv 625)).signExtend 64 := by
  subst hd
  exact if_pos (decide_eq_true h)

/-- The answer of `E2IT`; a free value taken is counted and nothing else moves. -/
theorem answers_e2it (p : Bool) {s : State} (hl : s.live) : ∃ t, exec (.e2it p) s = .next t ∧
    OnlyAnswered s t (doneWord (s.ticksOf s.opALow)) := by
  refine ⟨_, rfl, ?_⟩
  rw [responseWord_eq]
  exact ⟨answered_of_ports rfl hl, blockKept_of_eq rfl rfl rfl rfl rfl rfl rfl, rfl, rfl⟩

/-- Settles O43: the conversions are the model's own products. -/
theorem ticksConvert : Obligations.TicksConvert := by
  intro p s hl
  obtain ⟨t, hrun, hanswer⟩ := answers_e2it p hl
  exact ⟨encode_eq_commandWord (.it2e p), encode_eq_commandWord (.e2it p),
    answersWord_of_exec_eq (exec_it2e p s) rfl hl,
    t, _, hrun, hanswer, fun hd => ticksOf_of_inRange s rfl hd⟩

/-! ### The round trip of the ticks (R218) -/

/-- The truncated products there and back, for a count that is not negative. -/
theorem tdiv_tdiv_of_nonneg {t : Int} (ht : 0 ≤ t) :
    ((t * 625).tdiv 3 * 3).tdiv 625 = if t % 3 = 0 then t else t - 1 := by
  have hunits : (t * 625).tdiv 3 = t * 625 / 3 := Int.tdiv_eq_ediv_of_nonneg (by omega)
  have hmod : t * 625 % 3 = t % 3 := by omega
  rw [hunits, Int.tdiv_eq_ediv_of_nonneg (by omega)]
  split <;> omega

/-- Truncation is odd, so that a negative count follows its opposite. -/
theorem tdiv_tdiv (t : Int) : ((t * 625).tdiv 3 * 3).tdiv 625 = if t % 3 = 0 then t else t - t.sign := by
  rcases lt_trichotomy t 0 with ht | rfl | ht
  · have hopp := tdiv_tdiv_of_nonneg (t := -t) (by omega)
    simp only [Int.neg_mul, Int.neg_tdiv] at hopp
    rw [Int.sign_eq_neg_one_of_neg ht]
    split <;> split at hopp <;> omega
  · rfl
  · rw [tdiv_tdiv_of_nonneg ht.le, Int.sign_eq_one_of_pos ht]

theorem natAbs_ticksToHu_le (t : BitVec 32) : (ticksToHu t).natAbs ≤ 2 ^ 31 * 625 / 3 := by
  have hlow := t.le_toInt
  have hhigh := t.toInt_lt
  rw [ticksToHu, Int.natAbs_tdiv]
  exact Nat.div_le_div_right (by omega)

theorem toInt_wordOfInt_ticksToHu (t : BitVec 32) : (wordOfInt (ticksToHu t)).toInt = ticksToHu t := by
  have hbound := natAbs_ticksToHu_le t
  exact BitVec.toInt_ofInt_eq_self (by decide) (by omega) (by omega)

/-- The count moved by one toward zero still fits in 32 bits. -/
theorem toInt_signExtend_tdiv_ticksToHu (t : BitVec 32) :
    ((BitVec.ofInt 32 ((ticksToHu t * 3).tdiv 625)).signExtend 64).toInt =
      if t.toInt % 3 = 0 then t.toInt else t.toInt - t.toInt.sign := by
  have hlow := t.le_toInt
  have hhigh := t.toInt_lt
  have hsign : t.toInt.sign = 1 ∧ 0 < t.toInt ∨ t.toInt.sign = 0 ∨ t.toInt.sign = -1 ∧ t.toInt < 0 := by
    rcases lt_trichotomy t.toInt 0 with h | h | h
    · exact .inr (.inr ⟨Int.sign_eq_neg_one_of_neg h, h⟩)
    · exact .inr (.inl (Int.sign_eq_zero_iff_zero.2 h))
    · exact .inl ⟨Int.sign_eq_one_of_pos h, h⟩
  rw [BitVec.toInt_signExtend_of_le (by decide), ticksToHu, tdiv_tdiv]
  exact BitVec.toInt_ofInt_eq_self (by decide) (by split <;> omega) (by split <;> omega)

/-- Settles O44: the clock units of any count lie in the range of `E2IT`. -/
theorem ticksRoundTrip : Obligations.TicksRoundTrip := by
  intro p q s u hs hu ticks
  refine ⟨_, _, exec_it2e p s, (onlyAnswered_complete s _ hs).answered, fun hbus => ?_⟩
  obtain ⟨v, hrun, hanswer⟩ := answers_e2it q hu
  have hword : u.opALow = wordOfInt (ticksToHu s.opAHalf) :=
    (congrArg etodLow hbus).trans (etodLow_wideOfWord _)
  have hrange := (natAbs_ticksToHu_le s.opAHalf).trans (show _ ≤ (2 ^ 63 - 1) / 3 by decide)
  have hx : (u.ticksOf u.opALow).toInt = if ticks % 3 = 0 then ticks else ticks - ticks.sign := by
    rw [hword, ticksOf_of_inRange u (toInt_wordOfInt_ticksToHu _) hrange, toInt_signExtend_tdiv_ticksToHu]
    rfl
  exact ⟨v, _, hrun, hanswer.answered, fun h => hx.trans (if_pos h), fun h => hx.trans (if_neg h)⟩

/-! ### The interval timer's commands (R220, R221) -/

section
variable {s : State} {c : BitVec 8} {x : Cpu}

theorem exec_setit (p : Bool) (hx : s.cpus[c.toNat]? = some x) : exec (.setit p c) s =
    .next ((s.sampled.onSlot c (setItBase (s.now + wordOfInt (ticksToHu s.opAHalf)))).complete doneEmpty) :=
  congrArg Host.Outcome.next (withSlot_of_present hx _)

theorem exec_getit (p : Bool) (hx : s.cpus[c.toNat]? = some x) : exec (.getit p c) s =
    .next ((s.sampled.ticksTaken (x.itBase - s.now)).complete
      (doneWord (s.sampled.ticksOf (x.itBase - s.now)))) := by
  rw [← responseWord_eq, ← slot_of_present hx]
  exact congrArg Host.Outcome.next (withSlot_of_present hx _)

theorem answers_getit (p : Bool) (hx : s.cpus[c.toNat]? = some x) (hl : s.live) :
    ∃ t, exec (.getit p c) s = .next t ∧
      SampledAndAnswered s t (doneWord (s.sampled.ticksOf (x.itBase - s.now))) :=
  ⟨_, exec_getit p hx, answered_of_ports rfl hl, blockKept_of_eq rfl rfl rfl rfl rfl rfl rfl, rfl, rfl⟩

end

theorem now_add_ticksToHu (s : State) (t : BitVec 32) :
    s.now + wordOfInt (ticksToHu t) = BitVec.ofInt 64 (s.steeredNow + (t.toInt * 625).tdiv 3) := by
  rw [now_eq_ofInt, wordOfInt, ticksToHu, ← BitVec.ofInt_add]

/-- Settles O42: by whether the block has the slot. -/
theorem intervalTimerIsSetAndRead : Obligations.IntervalTimerIsSetAndRead := by
  intro p c s hl
  refine ⟨encode_eq_commandWord (.setit p c), encode_eq_commandWord (.getit p c), fun x hx => ⟨?set, ?read⟩,
    fun habsent => ?absent⟩
  case set =>
    exact writesSlot_of_exec_eq (exec_setit p hx) hx (congrArg (setItBase · x) (now_add_ticksToHu s _)) rfl hl
  case read =>
    obtain ⟨t, hrun, hanswer⟩ := answers_getit p hx hl
    have hdistance : (x.itBase - s.now).toInt = ((x.itBase.toNat : Int) - s.steeredNow).bmod (2 ^ 64) := by
      rw [toInt_sub_bmod, now_toNat]
    exact ⟨t, _, hrun, hanswer, fun hd => ticksOf_of_inRange s.sampled hdistance hd⟩
  case absent =>
    exact ⟨interrupts_of_absentSlot (by simp [encodeFields, fieldsFC, slotOpcodes]) habsent nofun hl,
      interrupts_of_absentSlot (by simp [encodeFields, fieldsFC, slotOpcodes]) habsent nofun hl⟩

/-! ### A jump of the clock (R211; spec/70_reset_and_hazards.md R369) -/

/-- The commands that write the clock, and by how much each moves it at its own instant. -/
def JumpsBy (i : Instr) (s : State) (jump : Word) : Prop :=
  (i = .adjoff true ∧ jump = s.opALow) ∨ (i = .setclk true ∧ jump = s.opAHigh - s.now) ∨
    (i = .csrrst true ∧ jump = etodHigh s.hostEtod - s.now) ∨ ((∃ k, i = .setepo true k) ∧ jump = 0#64)

theorem csr_of_setepo {k : BitVec 8} {s t : State} (h : exec (.setepo true k) s = .next t) : t.csr = s.csr := by
  obtain rfl := Host.Outcome.next.inj h
  rcases withSlot_cases s k fun s => (s.onSlot k (setTodEpoch s.opALow)).complete Response.ok with
    ⟨-, hrun⟩ | ⟨-, htrap⟩
  · exact (congrArg State.csr hrun).trans (by simp)
  · exact (congrArg State.csr htrap).trans (by simp)

/-- The clock steered at the command's own instant, under the steering state it leaves. -/
theorem steer_of_jumpsBy {i : Instr} {s t : State} {jump : Word} (hi : JumpsBy i s jump)
    (h : exec i s = .next t) : steer s.cfg t.csr (etodHigh s.hostEtod) = s.now + jump := by
  rcases hi with ⟨rfl, rfl⟩ | ⟨rfl, rfl⟩ | ⟨rfl, rfl⟩ | ⟨⟨k, rfl⟩, rfl⟩
  · rw [csr_of_exec_eq (exec_adjoff s) h, steer_newEpoch_self]
  · rw [csr_of_exec_eq (exec_setclk s) h, steer_newEpoch_self, add_sub_cancel]
  · have hzero : 0#64 = etodHigh s.hostEtod - etodHigh s.hostEtod := (sub_self _).symm
    rw [csr_of_exec_eq (exec_csrrst s) h, hzero, steer_newEpoch_self, add_sub_cancel]
  · rw [csr_of_setepo h, ← now_eq_steer, BitVec.add_zero]

/-- Such a command moves no timer's base. -/
theorem bases_of_jumpsBy {i : Instr} {s t : State} {jump : Word} (hi : JumpsBy i s jump)
    (h : exec i s = .next t) {d : Nat} {x : Cpu} (hx : s.cpus[d]? = some x) :
    ∃ y, t.cpus[d]? = some y ∧ y.cptBase = x.cptBase ∧ y.itBase = x.itBase := by
  obtain ⟨hlength, hwriters⟩ := onlyTheirCommandsWriteASlot i s t h
  have hd : d < t.cpus.length := hlength ▸ (List.getElem?_eq_some_iff.1 hx).1
  have hy := List.getElem?_eq_getElem hd
  obtain ⟨-, hcpt, hit, -, -⟩ := hwriters d x _ hx hy
  refine ⟨_, hy, not_imp_comm.1 hcpt ?cpuTimer, not_imp_comm.1 hit ?intervalTimer⟩
  case cpuTimer =>
    rintro ⟨p, c, rfl, -⟩
    simp [JumpsBy] at hi
  case intervalTimer =>
    rintro ⟨p, c, rfl, -⟩
    simp [JumpsBy] at hi

/-- The reading of a CPU timer whose clock has jumped. -/
theorem cptVal_add_jump (shift : Nat) (now jump : Word) {x y : Cpu} (h : y.cptBase = x.cptBase) :
    cptVal shift (now + jump) y = cptVal shift now x - BitVec.ofNat 64 (jump.toNat * 2 ^ shift) := by
  have hjump : BitVec.ofNat 64 (jump.toNat * 2 ^ shift) = jump <<< shift := by
    apply BitVec.eq_of_toNat_eq
    rw [BitVec.toNat_ofNat, BitVec.toNat_shiftLeft, Nat.shiftLeft_eq]
  rw [hjump, cptVal, cptVal, h]
  simp only [BitVec.shiftLeft_eq_mul_twoPow]
  ring

/-- Settles O45: the clock after the command is the one before it and the jump, and the timers' bases stand. -/
theorem aClockJumpMovesTheTimers : Obligations.AClockJumpMovesTheTimers := by
  intro i jump p q c s t f g x hs hf hg hx hi hrun hfcfg hfcsr hfsample hfcpus hgcfg hgcsr hgsample hgcpus
    before after ticks
  have hjump : JumpsBy i s jump := by rwa [JumpsBy, now_eq_ofNat, hostHigh_eq_ofInt, BitVec.ofInt_natCast]
  have hfhost : f.hostEtod = s.hostEtod := hostEtod_congr hfcfg hfsample
  have hghost : g.hostEtod = s.hostEtod := hostEtod_congr hgcfg hgsample
  have hfnow : f.now = s.now := now_congr hfcfg hfcsr hfsample
  have hgnow : g.now = s.now + jump := by
    rw [now_eq_steer, hgcfg, hgcsr, hghost, steer_of_jumpsBy hjump hrun]
  obtain ⟨y, hy, hcpt, hit⟩ := bases_of_jumpsBy hjump hrun hx
  rw [← hfcpus] at hx
  rw [← hgcpus] at hy
  refine ⟨?clock, ?cpuTimer, ?intervalTimer⟩
  case clock =>
    exact ⟨_, _, _, _, exec_fetch p f, exec_fetch q g,
      answered_fetch ((now_eq_steer f).symm.trans hfnow) (congrArg etodLow hfhost) hf,
      answered_fetch ((now_eq_steer g).symm.trans hgnow) (congrArg etodLow hghost) hg⟩
  case cpuTimer =>
    obtain ⟨f', hfrun, hfanswer⟩ := answers_getcpt p hx hf
    obtain ⟨g', hgrun, hganswer⟩ := answers_getcpt q hy hg
    rw [hgcfg, hgnow, cptVal_add_jump _ _ _ hcpt] at hganswer
    rw [hfcfg, hfnow] at hfanswer
    exact ⟨f', g', _, hfrun, hgrun, hfanswer, hganswer⟩
  case intervalTimer =>
    obtain ⟨f', hfrun, hfanswer⟩ := answers_getit p hx hf
    obtain ⟨g', hgrun, hganswer⟩ := answers_getit q hy hg
    have hbefore : (x.itBase - f.now).toInt = before := by rw [hfnow, now_eq_ofNat]
    have hafter : (y.itBase - g.now).toInt = after := by rw [hgnow, hit, ← sub_sub, now_eq_ofNat]
    exact ⟨f', g', _, _, hfrun, hgrun, hfanswer.answered, hganswer.answered,
      ticksOf_of_inRange f.sampled hbefore, ticksOf_of_inRange g.sampled hafter⟩

end Sys2Proof.Machine
end

section
/-! Proofs about the key-byte locks (spec/44_sync.md R242 to R252): mutual exclusion, kept by every command within
the caller contracts. -/

namespace Sys2Proof.Machine

/-! ### One-bit masks (R243) -/

theorem exists_shift_of_isOneBitMask : ∀ m : Byte, isOneBitMask m = true → ∃ n : Fin 8, m = 1#8 <<< n.val := by
  decide

theorem ne_zero_of_isOneBitMask {m : Byte} (h : isOneBitMask m = true) : m ≠ 0#8 := by
  rintro rfl
  exact absurd h (by decide)

/-- Two different one-bit masks share no bit. -/
theorem and_eq_zero_of_isOneBitMask {m k : Byte} (hm : isOneBitMask m = true) (hk : isOneBitMask k = true)
    (hne : m ≠ k) : m &&& k = 0#8 := by
  obtain ⟨i, rfl⟩ := exists_shift_of_isOneBitMask m hm
  obtain ⟨j, rfl⟩ := exists_shift_of_isOneBitMask k hk
  have hdisjoint : ∀ i j : Fin 8, 1#8 <<< i.val ≠ 1#8 <<< j.val → 1#8 <<< i.val &&& 1#8 <<< j.val = 0#8 := by decide
  exact hdisjoint i j hne

theorem or_and_of_disjoint {v m k : Byte} (h : m &&& k = 0#8) : (v ||| m) &&& k = v &&& k := by
  rw [BitVec.and_comm, BitVec.and_or_distrib_left, BitVec.and_comm k m, h, BitVec.or_zero, BitVec.and_comm]

theorem and_not_and_of_disjoint {v m k : Byte} (h : m &&& k = 0#8) : (v &&& ~~~m) &&& k = v &&& k := by
  have hk : k = k &&& ~~~m := by
    calc k = k &&& (m ||| ~~~m) := by rw [BitVec.or_not_self, BitVec.and_allOnes]
      _ = k &&& ~~~m := by rw [BitVec.and_or_distrib_left, BitVec.and_comm k m, h, BitVec.zero_or]
  rw [BitVec.and_assoc, BitVec.and_comm _ k, ← hk]

theorem isOneBitMask_site {s : State} (h : s.cfg.legal = true) (k : LockKind) :
    isOneBitMask (s.site k).2 = true := by
  simp only [Config.legal, Bool.and_eq_true, List.all_eq_true] at h
  obtain ⟨⟨⟨⟨_, hstorage⟩, _⟩, hskaip⟩, hsca⟩ := h
  have hrcp : isOneBitMask s.cfg.rcpLock = true := hstorage _ (by simp)
  cases k with
  | rcp => exact hrcp
  | sca => exact hsca
  | pgste =>
    cases hstrategy : s.cfg.useSkaipAsLock <;> simp [State.site, lockSite, hstrategy, hrcp, hskaip]

/-! ### Mutual exclusion and one rewrite of a lock byte (R247) -/

section Exclusion

variable {a b : Word} {mask m v : Byte} {s t u : State} {i : Instr}

/-- Mutual exclusion speaks of the lock's bit and of the holders alone. -/
theorem lockExclusive_of_kept (h : LockExclusive a mask s)
    (hbit : t.byteAt a &&& mask = s.byteAt a &&& mask)
    (hholders : ∀ p, holdsLock a mask p t.history = holdsLock a mask p s.history) : LockExclusive a mask t where
  bitSet p hp := hbit ▸ h.bitSet p (hholders p ▸ hp)
  unique p q hp hq := h.unique p q (hholders p ▸ hp) (hholders q ▸ hq)

theorem lockExclusive_congr (h : LockExclusive a mask s) (hmem : t.mem = s.mem) (hhist : t.history = s.history) :
    LockExclusive a mask t :=
  lockExclusive_of_kept h (by simp [State.byteAt, hmem]) (by simp [hhist])

theorem holdsLock_of_clear (h : LockExclusive a mask s) (hclear : s.byteAt a &&& mask = 0#8) (p : Nat) :
    holdsLock a mask p s.history = false :=
  Bool.eq_false_iff.2 fun hp => h.bitSet p hp hclear

theorem holdsLock_rmw_of_ne (h : b ≠ a) (p q n : Nat) (old new : Wide) (wrote : Bool) (rest : List Event) :
    holdsLock a mask p (.rmw q b n old new wrote :: rest) = holdsLock a mask p rest := by
  simp [holdsLock, h]

/-- Who holds the lock after its byte is rewritten: the issuing port has lost it, has acquired it or is as before,
by the bit before and after; every other port is as before. -/
theorem holdsLock_rewriteLockByte (s : State) (a : Word) (mask v : Byte) (p : Nat) :
    holdsLock a mask p (s.rewriteLockByte a v).history =
      if s.active = p then
        if v &&& mask = 0#8 then false
        else if s.byteAt a &&& mask = 0#8 then true
        else holdsLock a mask p s.history
      else holdsLock a mask p s.history := by
  simp [holdsLock, setWidth_wideOfByte]

/-- A rewrite of another byte. -/
theorem lockExclusive_rewrite_of_ne (h : LockExclusive a mask s) (hb : b ≠ a) (v : Byte) :
    LockExclusive a mask (s.rewriteLockByte b v) :=
  lockExclusive_of_kept h (by rw [byteAt_rewriteLockByte_ne s b v hb.symm])
    fun p => by rw [rewriteLockByte_history, holdsLock_rmw_of_ne hb]

/-- A rewrite of the other bits of the lock byte. -/
theorem lockExclusive_rewrite_of_bit_eq (h : LockExclusive a mask s) (hmem : Memory.wf s.mem = true)
    (hv : v &&& mask = s.byteAt a &&& mask) : LockExclusive a mask (s.rewriteLockByte a v) := by
  refine lockExclusive_of_kept h (by rw [byteAt_rewriteLockByte_self s a v hmem, hv]) fun p => ?_
  rw [holdsLock_rewriteLockByte, hv]
  by_cases hclear : s.byteAt a &&& mask = 0#8
  · simp [hclear, holdsLock_of_clear h hclear]
  · simp [hclear]

/-- A clear bit set: nobody held the lock, and the issuing port is its only holder now. -/
theorem lockExclusive_rewrite_of_acquire (h : LockExclusive a mask s) (hmem : Memory.wf s.mem = true)
    (hclear : s.byteAt a &&& mask = 0#8) (hset : v &&& mask ≠ 0#8) :
    LockExclusive a mask (s.rewriteLockByte a v) := by
  have hholder : ∀ p, holdsLock a mask p (s.rewriteLockByte a v).history = true → s.active = p := by
    intro p
    rw [holdsLock_rewriteLockByte, if_neg hset, if_pos hclear, holdsLock_of_clear h hclear]
    simp
  exact ⟨fun p _ => by rwa [byteAt_rewriteLockByte_self s a v hmem],
    fun p q hp hq => (hholder p hp).symm.trans (hholder q hq)⟩

/-- The bit cleared by the holder: nobody holds the lock now. -/
theorem lockExclusive_rewrite_of_release (h : LockExclusive a mask s)
    (hholder : holdsLock a mask s.active s.history = true) (hclear : v &&& mask = 0#8) :
    LockExclusive a mask (s.rewriteLockByte a v) := by
  have hnone : ∀ p, holdsLock a mask p (s.rewriteLockByte a v).history = false := by
    intro p
    rw [holdsLock_rewriteLockByte, if_pos hclear]
    split
    case isTrue => rfl
    case isFalse hne => exact Bool.eq_false_iff.2 fun hp => hne (h.unique _ _ hholder hp)
  exact ⟨fun p hp => absurd hp (Bool.eq_false_iff.1 (hnone p)),
    fun p _ hp => absurd hp (Bool.eq_false_iff.1 (hnone p))⟩

/-! ### The lock commands keep mutual exclusion (R245, R246, R249) -/

/-- Any clear lock bit set, of this lock or another one. -/
theorem lockExclusive_setBit (h : LockExclusive a mask s) (hmem : Memory.wf s.mem = true)
    (hmask : isOneBitMask mask = true) (hm : isOneBitMask m = true) (hclear : s.byteAt b &&& m = 0#8) :
    LockExclusive a mask (s.rewriteLockByte b (s.byteAt b ||| m)) := by
  by_cases hb : b = a
  case neg => exact lockExclusive_rewrite_of_ne h hb _
  subst hb
  by_cases hsame : m = mask
  · subst hsame
    refine lockExclusive_rewrite_of_acquire h hmem hclear ?_
    rw [BitVec.and_comm, BitVec.and_or_distrib_left, BitVec.and_comm m, hclear, BitVec.and_self, BitVec.zero_or]
    exact ne_zero_of_isOneBitMask hm
  · exact lockExclusive_rewrite_of_bit_eq h hmem (or_and_of_disjoint (and_eq_zero_of_isOneBitMask hm hmask hsame))

/-- Any lock bit cleared, of this lock by its holder or of another one. -/
theorem lockExclusive_clearBit (h : LockExclusive a mask s) (hmem : Memory.wf s.mem = true)
    (hmask : isOneBitMask mask = true) (hm : isOneBitMask m = true)
    (hholder : holdsLock b m s.active s.history = true) :
    LockExclusive a mask (s.rewriteLockByte b (s.byteAt b &&& ~~~m)) := by
  by_cases hb : b = a
  case neg => exact lockExclusive_rewrite_of_ne h hb _
  subst hb
  by_cases hsame : m = mask
  · subst hsame
    exact lockExclusive_rewrite_of_release h hholder (by simp [BitVec.and_assoc])
  · exact lockExclusive_rewrite_of_bit_eq h hmem
      (and_not_and_of_disjoint (and_eq_zero_of_isOneBitMask hm hmask hsame))

theorem lockExclusive_lock (hs : Wf s) (hmask : isOneBitMask mask = true) (h : LockExclusive a mask s)
    (k : LockKind) : LockExclusive a mask (s.lock k) := by
  rcases lock_cases s k with ⟨_, f, _, e⟩ | ⟨u, hu, hbit⟩
  case inl => exact e ▸ lockExclusive_congr h (by simp) (by simp)
  obtain ⟨hum, huh⟩ : u.mem = s.mem ∧ u.history = s.history := by
    rcases hu with ⟨_, rfl⟩ | ⟨_, _, rfl⟩ <;> simp
  have hexcl : LockExclusive a mask u := lockExclusive_congr h hum huh
  have hbyte : u.byteAt (s.site k).1 = s.byteAt (s.site k).1 := congrArg (memByte · _) hum
  rcases hbit with ⟨hclear, e⟩ | ⟨_, e⟩ <;> rw [e]
  · rw [← hbyte] at hclear ⊢
    exact lockExclusive_setBit hexcl (hum ▸ hs.mem) hmask (isOneBitMask_site hs.legal k) hclear
  · exact lockExclusive_congr hexcl (by simp) (by simp)

theorem lockExclusive_tryLock (hs : Wf s) (hmask : isOneBitMask mask = true) (h : LockExclusive a mask s)
    (k : LockKind) : LockExclusive a mask (s.tryLock k) := by
  have hasked : LockExclusive a mask s.asked := lockExclusive_congr h (by simp) (by simp)
  rcases tryLock_cases s k with ⟨f, _, e⟩ | ⟨_, hclear, e⟩ | ⟨_, _, e⟩ <;> rw [e]
  · exact lockExclusive_congr hasked (by simp) (by simp)
  · exact lockExclusive_setBit hasked hs.mem hmask (isOneBitMask_site hs.legal k) hclear
  · exact lockExclusive_of_kept h rfl fun p => by simp [holdsLock]

theorem lockExclusive_unlock (hs : Wf s) (hmask : isOneBitMask mask = true) (h : LockExclusive a mask s)
    (k : LockKind) (hholder : holdsLock (s.site k).1 (s.site k).2 s.active s.history = true) :
    LockExclusive a mask (s.unlock k) := by
  have hasked : LockExclusive a mask s.asked := lockExclusive_congr h (by simp) (by simp)
  rcases unlock_cases s k with ⟨f, _, e⟩ | ⟨_, e⟩ <;> rw [e]
  · exact lockExclusive_congr hasked (by simp) (by simp)
  · exact lockExclusive_clearBit hasked hs.mem hmask (isOneBitMask_site hs.legal k) hholder

/-! ### The other commands -/

/-- A compare and swap that does not cover the lock byte. -/
theorem lockExclusive_compareAndSwap {n : Nat} (hn : 0 < n)
    (hout : ∀ j < n, s.opAd + BitVec.ofNat 64 j ≠ a) (h : LockExclusive a mask s) (k : Bool) :
    LockExclusive a mask (s.compareAndSwap n k) := by
  have had : s.opAd ≠ a := by simpa using hout 0 hn
  rcases compareAndSwap_cases s n k with ⟨_, e⟩ | ⟨_, f, _, e⟩ | ⟨_, _, e⟩ <;> rw [e]
  · exact lockExclusive_congr h (by simp) (by simp)
  · exact lockExclusive_of_kept h rfl fun p => by simp [holdsLock]
  rcases casAccess_cases s.serialize.asked n k with ⟨_, e⟩ | ⟨_, e⟩ <;> rw [e]
  · refine lockExclusive_of_kept h (congrArg (· &&& mask) ?byte) fun p => ?holders
    case byte =>
      exact memByte_memWrite_outside s.mem s.opAd n _ fun j hj => (hout j hj).symm
    case holders => simp [State.casEqual, holdsLock, had]
  · exact lockExclusive_of_kept h rfl fun p => by simp [State.casUnequal, holdsLock]

/-- The body of a command that does not reach memory makes no event of a lock. -/
theorem body_holdsLock (hi : i.reachesMemory = false) (b : Body i s u) (p : Nat) :
    holdsLock a mask p u.history = holdsLock a mask p s.history := by
  induction b with
  | storeRmw _ _ _ _ reaches => simp [hi] at reaches
  | _ => simp [holdsLock, *]

theorem lockExclusive_of_not_reachesMemory (hi : i.reachesMemory = false) (h : LockExclusive a mask s)
    (hend : Ending i s t) : LockExclusive a mask t := by
  have hbody : ∀ u, Body i s u → LockExclusive a mask u := fun u b =>
    lockExclusive_of_kept h (by rw [State.byteAt, (body_storage hi b).1, State.byteAt]) (body_holdsLock hi b)
  cases hend with
  | answer b => exact lockExclusive_congr (hbody _ b) (by simp) (by simp)
  | wait b => exact lockExclusive_congr (hbody _ b) (by simp) (by simp)

end Exclusion

/-! ### The memory commands by kind (R242, R260) -/

theorem exec_lockCommand (p : Bool) (k : LockKind) (s : State) : exec (lockCommand p k) s = .next (s.lock k) := by
  cases k <;> rfl

theorem exec_tryLockCommand (p : Bool) (k : LockKind) (s : State) :
    exec (tryLockCommand p k) s = .next (s.tryLock k) := by
  cases k <;> rfl

theorem exec_unlockCommand (p : Bool) (k : LockKind) (s : State) :
    exec (unlockCommand p k) s = .next (s.unlock k) := by
  cases k <;> rfl

theorem unlockKind_unlockCommand (p : Bool) (k : LockKind) : (unlockCommand p k).unlockKind = some k := by
  cases k <;> rfl

theorem exec_of_casWidth {i : Instr} {n : Nat} (s : State) (hn : i.casWidth = some n) (hpair : i.pairEven = true) :
    exec i s = .next (s.compareAndSwap n i.interceptBit) := by
  cases i with
  | casW | casG =>
    obtain rfl := Option.some.inj hn
    rfl
  | casQ p k r1 r3 | casD p k r1 r3 =>
    obtain rfl := Option.some.inj hn
    exact congrArg Host.Outcome.next (withPair_of_even ((pairOk_eq_pairEven p k r1 r3).trans hpair) _)
  | _ => cases hn

theorem memory_command_cases (i : Instr) :
    i.reachesMemory = false ∨ (∃ p k, i = lockCommand p k) ∨ (∃ p k, i = tryLockCommand p k) ∨
      (∃ p k, i = unlockCommand p k) ∨ ∃ n, i.casWidth = some n ∧ 0 < n := by
  cases i with
  | lockR p => exact .inr (.inl ⟨p, .rcp, rfl⟩)
  | lockP p => exact .inr (.inl ⟨p, .pgste, rfl⟩)
  | lockS p => exact .inr (.inl ⟨p, .sca, rfl⟩)
  | trylockR p => exact .inr (.inr (.inl ⟨p, .rcp, rfl⟩))
  | trylockP p => exact .inr (.inr (.inl ⟨p, .pgste, rfl⟩))
  | trylockS p => exact .inr (.inr (.inl ⟨p, .sca, rfl⟩))
  | unlockR p => exact .inr (.inr (.inr (.inl ⟨p, .rcp, rfl⟩)))
  | unlockP p => exact .inr (.inr (.inr (.inl ⟨p, .pgste, rfl⟩)))
  | unlockS p => exact .inr (.inr (.inr (.inl ⟨p, .sca, rfl⟩)))
  | casW | casG | casQ | casD => exact .inr (.inr (.inr (.inr ⟨_, rfl, by decide⟩)))
  | _ => exact .inl rfl

/-- Settles O51: a command that sets a clear bit makes its port the only holder, an `UNLOCK` of the holder leaves
none, and every other command leaves the lock's bit and its holders as they are. -/
theorem locksExcludeEachOther : Obligations.LocksExcludeEachOther := by
  intro a mask i s t hwf hmask hunlock hcas h hrun
  have hs : Wf s := (wf_iff s).1 hwf
  rcases memory_command_cases i with hi | ⟨p, k, rfl⟩ | ⟨p, k, rfl⟩ | ⟨p, k, rfl⟩ | ⟨n, hn, hpos⟩
  · exact lockExclusive_of_not_reachesMemory hi h (ending_of_exec hrun)
  · obtain rfl := Host.Outcome.next.inj ((exec_lockCommand p k s).symm.trans hrun)
    exact lockExclusive_lock hs hmask h k
  · obtain rfl := Host.Outcome.next.inj ((exec_tryLockCommand p k s).symm.trans hrun)
    exact lockExclusive_tryLock hs hmask h k
  · obtain rfl := Host.Outcome.next.inj ((exec_unlockCommand p k s).symm.trans hrun)
    exact lockExclusive_unlock hs hmask h k (hunlock k (unlockKind_unlockCommand p k))
  · cases hpair : i.pairEven with
    | true =>
      obtain rfl := Host.Outcome.next.inj ((exec_of_casWidth s hn hpair).symm.trans hrun)
      exact lockExclusive_compareAndSwap hpos (hcas n hn) h _
    | false =>
      obtain rfl := Host.Outcome.next.inj ((exec_of_oddPair hpair).symm.trans hrun)
      exact lockExclusive_congr h (by simp) (by simp)

end Sys2Proof.Machine
end

section
/-! Proofs about the synchronisation commands (spec/44_sync.md): how each lock command, the coarse lock and a compare
and swap end, what they write and what they leave as it was. -/

namespace Sys2Proof.Machine

variable {s t u : State} {i : Instr} {a : Word} {n : Nat} {r : Response}

/-! ### What a memory command's checks leave as it was -/

/-- `u` is `s` but for the verdicts, the draws and the events: a memory command before its access, its checks made. -/
structure Checked (s u : State) : Prop where
  csr : u.csr = s.csr
  todValue : u.todValue = s.todValue
  cpus : u.cpus = s.cpus
  glock : u.glock = s.glock
  mem : u.mem = s.mem
  keyRc : u.keyRc = s.keyRc
  ports : u.ports = s.ports
  cfg : u.cfg = s.cfg
  active : u.active = s.active
  hostQueue : u.hostQueue = s.hostQueue

theorem checked_refl (s : State) : Checked s s := by
  constructor <;> rfl

theorem checked_asked (s : State) : Checked s s.asked := by
  constructor <;> simp

theorem checked_serialize_asked (s : State) : Checked s s.serialize.asked := by
  constructor <;> simp

theorem checked_asked_readRmw (s : State) (a : Word) (n : Nat) (old : Wide) : Checked s (s.asked.readRmw a n old) := by
  constructor <;> simp

theorem live_of_checked (c : Checked s u) (hl : s.live) : u.live := by
  rwa [State.live, c.active, c.ports]

theorem byteAt_of_checked (c : Checked s u) (b : Word) : u.byteAt b = s.byteAt b := by
  rw [State.byteAt, c.mem, State.byteAt]

theorem keyFlags_of_checked (c : Checked s u) (f : Nat) : u.keyFlags f = s.keyFlags f := by
  rw [State.keyFlags, c.keyRc, State.keyFlags]

theorem answered_of_checked (c : Checked s u) (h : Answered u t r) : Answered s t r where
  response := c.active ▸ h.response
  notHeld := c.active ▸ h.notHeld
  consumed := by simpa only [State.requestsOf, portAt_of_ports c.ports, c.active] using h.consumed
  others p hp := (h.others p (c.active ▸ hp)).trans (portAt_of_ports c.ports p)

theorem waiting_of_checked (c : Checked s u) (h : Waiting u t) : Waiting s t where
  noResponse := c.active ▸ h.noResponse
  held := c.active ▸ h.held
  outstanding := by simpa only [State.requestsOf, portAt_of_ports c.ports, c.active] using h.outstanding
  others p hp := (h.others p (c.active ▸ hp)).trans (portAt_of_ports c.ports p)

theorem blockKept_of_checked (c : Checked s u) (h : BlockKept u t) : BlockKept s t where
  clock := ⟨h.clock.csr.trans c.csr, h.clock.todValue.trans c.todValue⟩
  slots := h.slots.trans c.cpus
  glock := h.glock.trans c.glock
  storage := ⟨fun b => (h.storage.bytes b).trans (byteAt_of_checked c b),
    fun f => (h.storage.flags f).trans (keyFlags_of_checked c f)⟩
  cfg := h.cfg.trans c.cfg

theorem storedAt_of_checked (c : Checked s u) (h : StoredAt u t a n r) : StoredAt s t a n r where
  answered := answered_of_checked c h.answered
  clock := ⟨h.clock.csr.trans c.csr, h.clock.todValue.trans c.todValue⟩
  slots := h.slots.trans c.cpus
  glock := h.glock.trans c.glock
  cfg := h.cfg.trans c.cfg
  hostQueue := h.hostQueue.trans c.hostQueue
  outside b hb := (h.outside b hb).trans (byteAt_of_checked c b)
  otherFrames f hf := (h.otherFrames f (c.cfg ▸ hf)).trans (keyFlags_of_checked c f)

/-! ### The access check (20_memory.md R80) -/

theorem withAccess_of_granted (h : s.verdictFor a n = .granted) (run : State → State) :
    s.withAccess a n run = run s.asked := by
  simp [State.withAccess, h]

theorem withAccess_of_faulted {f : AccessFault} (h : s.verdictFor a n = .faulted f) (run : State → State) :
    s.withAccess a n run = s.asked.raisePgm (accessCode f) := by
  simp [State.withAccess, h]

theorem pic_accessCode (f : AccessFault) : (accessCode f).pic = faultNumber f := by
  cases f <;> rfl

/-- A command that ends with the code of an access fault. -/
theorem faults_of_exec_eq {f : AccessFault} (c : Checked s u) (hl : s.live)
    (h : exec i s = .next (u.raisePgm (accessCode f))) :
    ∃ t, exec i s = .next t ∧ Answered s t (pgmOnly (faultNumber f)) ∧ BlockKept s t ∧
      t.hostQueue = s.hostQueue ∧ t.verdicts = u.verdicts ∧ t.history = u.history := by
  have hend := pic_accessCode f ▸ onlyAnswered_raisePgm u (accessCode f) (live_of_checked c hl)
  exact ⟨_, h, answered_of_checked c hend.answered, blockKept_of_checked c hend.kept,
    hend.noDraw.hostQueue.trans c.hostQueue, by simp, hend.noDraw.history⟩

/-- A lock command that ends with the code of an access fault. -/
theorem lock_faults_of_exec_eq {f : AccessFault} (hl : s.live)
    (h : exec i s = .next (s.asked.raisePgm (accessCode f))) :
    ∃ t, exec i s = .next t ∧ Answered s t (pgmOnly (faultNumber f)) ∧ BlockKept s t ∧ NoHostDraw s t ∧
      t.verdicts = s.verdictsLeft := by
  obtain ⟨t, hrun, hanswer, hkept, hqueue, hverdicts, hhist⟩ := faults_of_exec_eq (checked_asked s) hl h
  exact ⟨t, hrun, hanswer, hkept, ⟨hqueue, hhist⟩, hverdicts⟩

/-! ### The lock commands (R245, R246, R249) -/

/-- Settles O46, by the strategy. -/
theorem lockSites : Obligations.LockSites := by
  intro c ad b
  refine ⟨rfl, rfl, fun hstrategy => ?skaip, fun hstrategy => ?rcp⟩
  case skaip => simp [lockSite, hstrategy]
  case rcp => simp [lockSite, hstrategy]

/-- The lock site of the outstanding request, in the terms of the claims. -/
theorem site_eq (s : State) (k : LockKind) :
    s.site k = lockSite s.cfg k s.request.ad (BitVec.ofNat 64 s.request.b.toNat) := by
  have hb : s.opBLow = BitVec.ofNat 64 s.request.b.toNat := by
    apply BitVec.eq_of_toNat_eq
    simp [State.opBLow, BitVec.extractLsb'_toNat]
  rw [State.site, hb, State.opAd]

/-- The words of an operation code whose three commands are those of the target kinds (R242). -/
theorem onlyForms_of_lockSel {opc : BitVec 8} (p : Bool) (hassigned : ∀ hasLong, opc.toNat ∈ opcodeNumbers hasLong)
    (hopen : opc.toNat ∉ [0x20, 0x21, 0x24, 0x25, 0x28, 0x31])
    (hforms : ∀ i, (encodeFields i).opc = opc →
      ∃ k, encodeFields i = fieldsFS opc (BitVec.ofNat 4 (lockSel k)) (encodeFields i).p) :
    OnlyForms opc.toNat p [0, 1, 2] := by
  refine onlyForms_of_fieldsFS hassigned (fun h => absurd h hopen) fun i hopc => ?_
  obtain ⟨k, hfields⟩ := hforms i hopc
  exact ⟨_, by cases k <;> simp [lockSel], hfields⟩

theorem onlyForms_lock (p : Bool) : OnlyForms 0x40 p [0, 1, 2] := by
  refine onlyForms_of_lockSel (opc := 0x40#8) p (by decide) (by decide) fun i hopc => ?_
  cases i with
  | lockR => exact ⟨.rcp, rfl⟩
  | lockP => exact ⟨.pgste, rfl⟩
  | lockS => exact ⟨.sca, rfl⟩
  | _ => simp [encodeFields, fieldsFS, fieldsFC, fieldsFX, fieldsFK] at hopc

theorem onlyForms_tryLock (p : Bool) : OnlyForms 0x41 p [0, 1, 2] := by
  refine onlyForms_of_lockSel (opc := 0x41#8) p (by decide) (by decide) fun i hopc => ?_
  cases i with
  | trylockR => exact ⟨.rcp, rfl⟩
  | trylockP => exact ⟨.pgste, rfl⟩
  | trylockS => exact ⟨.sca, rfl⟩
  | _ => simp [encodeFields, fieldsFS, fieldsFC, fieldsFX, fieldsFK] at hopc

theorem onlyForms_unlock (p : Bool) : OnlyForms 0x42 p [0, 1, 2] := by
  refine onlyForms_of_lockSel (opc := 0x42#8) p (by decide) (by decide) fun i hopc => ?_
  cases i with
  | unlockR => exact ⟨.rcp, rfl⟩
  | unlockP => exact ⟨.pgste, rfl⟩
  | unlockS => exact ⟨.sca, rfl⟩
  | _ => simp [encodeFields, fieldsFS, fieldsFC, fieldsFX, fieldsFK] at hopc

theorem encode_lockCommand (p : Bool) (k : LockKind) : encode (lockCommand p k) = commandWord 0x40 (lockSel k) p := by
  cases k <;> exact encode_eq_commandWord (lockCommand p _)

theorem encode_tryLockCommand (p : Bool) (k : LockKind) :
    encode (tryLockCommand p k) = commandWord 0x41 (lockSel k) p := by
  cases k <;> exact encode_eq_commandWord (tryLockCommand p _)

theorem encode_unlockCommand (p : Bool) (k : LockKind) :
    encode (unlockCommand p k) = commandWord 0x42 (lockSel k) p := by
  cases k <;> exact encode_eq_commandWord (unlockCommand p _)

theorem wideOfByte_eq_ofNat (v : Byte) : wideOfByte v = BitVec.ofNat 128 v.toNat :=
  (BitVec.ofNat_toNat 128 v).symm

theorem storedAt_rewriteLockByte (u : State) (a : Word) (v : Byte) (hl : u.live) :
    StoredAt u (u.rewriteLockByte a v) a 1 doneEmpty where
  answered := answered_of_ports (rewriteLockByte_ports u a v) hl
  clock := ⟨by simp, by simp⟩
  slots := by simp
  glock := by simp
  cfg := by simp
  hostQueue := by simp
  outside b hb := byteAt_rewriteLockByte_ne u a v (by simpa using hb 0)
  otherFrames f hf := keyFlags_rewriteLockByte_ne u a v hf

/-- A lock command that rewrites its lock byte (R244, R248). -/
theorem rewrites_of_exec_eq {v : Byte} (c : Checked s u) (hhist : u.history = s.history) (hl : s.live)
    (hmem : Memory.wf s.mem = true) (h : exec i s = .next (u.rewriteLockByte a v)) :
    ∃ t, exec i s = .next t ∧ StoredAt s t a 1 doneEmpty ∧ t.byteAt a = v ∧
      t.keyFlags (frameOf s.cfg a) = ⟨true, true⟩ ∧ t.verdicts = u.verdicts ∧
      t.history = .rmw s.active a 1 (BitVec.ofNat 128 (s.byteAt a).toNat) (BitVec.ofNat 128 v.toNat) true ::
        s.history := by
  refine ⟨_, h, storedAt_of_checked c (storedAt_rewriteLockByte u a v (live_of_checked c hl)),
    byteAt_rewriteLockByte_self u a v (c.mem ▸ hmem), c.cfg ▸ keyFlags_rewriteLockByte_self u a v, by simp, ?_⟩
  rw [rewriteLockByte_history, c.active, hhist, byteAt_of_checked c, wideOfByte_eq_ofNat, wideOfByte_eq_ofNat]

/-- A `LOCK` that is held already or whose access is granted tries the bit (R245). -/
theorem lock_of_proceeds {k : LockKind}
    (h : s.heldAt s.active = true ∨ s.verdictFor (s.site k).1 1 = .granted) :
    ∃ u, Checked s u ∧ u.history = s.history ∧
      u.verdicts = (if s.heldAt s.active = true then s.verdicts else s.verdictsLeft) ∧
      s.lock k = u.lockOrHold (s.site k) := by
  by_cases hheld : s.heldAt s.active = true
  · exact ⟨s, checked_refl s, rfl, (if_pos hheld).symm, if_pos hheld⟩
  · exact ⟨s.asked, checked_asked s, by simp, by rw [if_neg hheld, asked_verdicts],
      (if_neg hheld).trans (withAccess_of_granted (h.resolve_left hheld) _)⟩

theorem lock_of_faulted {k : LockKind} {f : AccessFault} (hheld : s.heldAt s.active = false)
    (h : s.verdictFor (s.site k).1 1 = .faulted f) : s.lock k = s.asked.raisePgm (accessCode f) :=
  (if_neg (Bool.eq_false_iff.1 hheld)).trans (withAccess_of_faulted h _)

/-- Settles O47: by the access check, then by the bit. -/
theorem lockAcquiresOrWaits : Obligations.LockAcquiresOrWaits := by
  intro p k s hl hmem
  refine ⟨encode_lockCommand p k, onlyForms_lock p, ?_⟩
  rw [← site_eq]
  refine ⟨fun f hheld hfault => ?fault, fun hgo => ?_⟩
  case fault =>
    exact lock_faults_of_exec_eq hl ((exec_lockCommand p k s).trans (congrArg _ (lock_of_faulted hheld hfault)))
  obtain ⟨u, hu, hhist, hverdicts, hlock⟩ := lock_of_proceeds hgo
  have hrun : exec (lockCommand p k) s = .next (u.lockOrHold (s.site k)) := hlock ▸ exec_lockCommand p k s
  have hbyte := byteAt_of_checked hu (s.site k).1
  refine ⟨fun hclear => ?acquired, fun hset => ?waits⟩
  case acquired =>
    rw [State.lockOrHold, hbyte, if_pos hclear] at hrun
    exact hverdicts ▸ rewrites_of_exec_eq hu hhist hl hmem hrun
  case waits =>
    rw [State.lockOrHold, hbyte, if_neg hset] at hrun
    exact ⟨_, hrun, waiting_of_checked hu (waiting_hold u (live_of_checked hu hl)),
      blockKept_of_checked hu (blockKept_hold u), ⟨hu.hostQueue, hhist⟩, hverdicts⟩

theorem tryLock_of_granted {k : LockKind} (h : s.verdictFor (s.site k).1 1 = .granted) :
    s.tryLock k = s.asked.lockOrBusy (s.site k) := by
  simp only [State.tryLock, withAccess_of_granted h]

theorem tryLock_of_faulted {k : LockKind} {f : AccessFault} (h : s.verdictFor (s.site k).1 1 = .faulted f) :
    s.tryLock k = s.asked.raisePgm (accessCode f) := by
  simp only [State.tryLock, withAccess_of_faulted h]

/-- Settles O48: by the access check, then by the bit. -/
theorem tryLockAcquiresOrIsBusy : Obligations.TryLockAcquiresOrIsBusy := by
  intro p k s hl hmem
  refine ⟨encode_tryLockCommand p k, onlyForms_tryLock p, ?_⟩
  rw [← site_eq]
  refine ⟨fun f hfault => ?fault, fun hgranted => ?_⟩
  case fault =>
    exact lock_faults_of_exec_eq hl ((exec_tryLockCommand p k s).trans (congrArg _ (tryLock_of_faulted hfault)))
  have hrun : exec (tryLockCommand p k) s = .next (s.asked.lockOrBusy (s.site k)) :=
    (exec_tryLockCommand p k s).trans (congrArg _ (tryLock_of_granted hgranted))
  refine ⟨fun hclear => ?acquired, fun hset => ?busy⟩
  case acquired =>
    rw [State.lockOrBusy, byteAt_asked, if_pos hclear] at hrun
    exact rewrites_of_exec_eq (checked_asked s) (asked_history s) hl hmem hrun
  case busy =>
    rw [State.lockOrBusy, byteAt_asked, if_neg hset] at hrun
    have hu := checked_asked_readRmw s (s.site k).1 1 (wideOfByte (s.byteAt (s.site k).1))
    have hend := onlyAnswered_complete _ Response.busy (live_of_checked hu hl)
    exact ⟨_, hrun, answered_of_checked hu hend.answered, blockKept_of_checked hu hend.kept, by simp, by simp⟩

theorem unlock_of_granted {k : LockKind} (h : s.verdictFor (s.site k).1 1 = .granted) :
    s.unlock k = s.asked.rewriteLockByte (s.site k).1 (s.byteAt (s.site k).1 &&& ~~~(s.site k).2) := by
  simp only [State.unlock, withAccess_of_granted h, byteAt_asked]

theorem unlock_of_faulted {k : LockKind} {f : AccessFault} (h : s.verdictFor (s.site k).1 1 = .faulted f) :
    s.unlock k = s.asked.raisePgm (accessCode f) := by
  simp only [State.unlock, withAccess_of_faulted h]

/-- Settles O49: by the access check; the mask's complement keeps every other bit. -/
theorem unlockClearsTheBit : Obligations.UnlockClearsTheBit := by
  intro p k s hl hmem
  refine ⟨encode_unlockCommand p k, onlyForms_unlock p, ?_⟩
  rw [← site_eq]
  refine ⟨fun f hfault => ?fault, fun hgranted => ?cleared⟩
  case fault =>
    exact lock_faults_of_exec_eq hl ((exec_unlockCommand p k s).trans (congrArg _ (unlock_of_faulted hfault)))
  case cleared =>
    obtain ⟨t, hrun, hstored, hbyte, hflags, hverdicts, -⟩ :=
      rewrites_of_exec_eq (checked_asked s) (asked_history s) hl hmem
        ((exec_unlockCommand p k s).trans (congrArg _ (unlock_of_granted hgranted)))
    exact ⟨t, hrun, hstored, fun j hj => by simp [hbyte, hj], hflags, hverdicts⟩

/-! ### The coarse lock (R253, R254) -/

/-- Settles O50: `GACQ` by whether the lock is free, `GREL` by whether its port holds it. -/
theorem coarseLockIsTakenAndFreed : Obligations.CoarseLockIsTakenAndFreed := by
  intro p s hl
  refine ⟨encode_eq_commandWord (.gacq p), encode_eq_commandWord (.grel p), fun hfree => ?taken,
    fun hheld => ?waits, fun hheld => ?freed, fun hother => ?ignored⟩
  case taken =>
    exact ⟨s.acquireGlock.complete Response.ok, congrArg _ (if_pos hfree),
      answered_of_ports (by simp [responseOk_eq]) hl, by simp, ⟨by simp, by simp⟩, by simp,
      storageKept_of_eq (by simp) (by simp), by simp, by simp, by simp⟩
  case waits =>
    exact ⟨s.hold, congrArg _ (if_neg hheld), waiting_hold s hl, blockKept_hold s, ⟨by simp, by simp⟩⟩
  case freed =>
    exact ⟨s.releaseGlock.complete Response.ok, congrArg _ (if_pos hheld),
      answered_of_ports (by simp [responseOk_eq]) hl, by simp, ⟨by simp, by simp⟩, by simp,
      storageKept_of_eq (by simp) (by simp), by simp, by simp, by simp⟩
  case ignored =>
    exact ⟨s.complete Response.ok, congrArg _ (if_neg hother), onlyAnswered_complete s Response.ok hl⟩

/-! ### Compare and swap (R261) -/

theorem lowBytes_eq_operandValue (n : Nat) (v : Wide) : lowBytes n v = operandValue n v := by
  rw [lowBytes, operandValue, Nat.pow_mul]

theorem toNat_operandValue (hn : n ≤ 16) (v : Wide) : (operandValue n v).toNat = v.toNat % 256 ^ n := by
  have hbound : 256 ^ n ≤ 2 ^ 128 := Nat.pow_le_pow_right (n := 256) (by decide) hn
  exact Nat.mod_eq_of_lt ((Nat.mod_lt _ (by positivity)).trans_le hbound)

/-- The low bytes of a value are its bytes. -/
theorem operandByte_operandValue {j : Nat} (hn : n ≤ 16) (hj : j < n) (v : Wide) :
    operandByte n (operandValue n v) j = operandByte n v j := by
  apply BitVec.eq_of_toNat_eq
  have hpow : 256 ^ n = 256 ^ (n - 1 - j) * 256 ^ (j + 1) := by
    rw [← Nat.pow_add, show n - 1 - j + (j + 1) = n by omega]
  have hdvd : 256 ∣ 256 ^ (j + 1) := Dvd.intro_left _ (Nat.pow_succ ..).symm
  have hsplit : v.toNat % 256 ^ n / 256 ^ (n - 1 - j) = v.toNat / 256 ^ (n - 1 - j) % 256 ^ (j + 1) := by
    rw [hpow, Nat.mod_mul_right_div_self]
  rw [operandByte, toNat_operandValue hn, hsplit, operandByte, BitVec.toNat_ofNat, BitVec.toNat_ofNat]
  exact Nat.mod_mod_of_dvd _ hdvd

theorem operandValue_memRead (m : Memory) (a : Word) (hn : n ≤ 16) :
    operandValue n (memRead m a n) = memRead m a n := by
  rw [operandValue, toNat_memRead m a hn, Nat.mod_eq_of_lt (memReadNat_lt m a n), memRead]

/-- Memory reads as a value's low bytes exactly when it holds the value's bytes. -/
theorem memRead_eq_operandValue_iff (m : Memory) (a : Word) (hn : n ≤ 16) (v : Wide) :
    memRead m a n = operandValue n v ↔ ∀ j < n, memByte m (a + BitVec.ofNat 64 j) = operandByte n v j := by
  refine ⟨fun h j hj => ?_, memRead_of_bytes⟩
  rw [← operandByte_memRead m a hn hj, h, operandByte_operandValue hn hj]

theorem le_of_casWidth (h : i.casWidth = some n) : n ≤ 16 := by
  obtain ⟨-, ⟨-, rfl⟩ | ⟨-, rfl⟩ | ⟨-, rfl⟩ | ⟨-, rfl⟩⟩ := (casWidth_eq_some_iff i n).1 h <;> decide

theorem storedAt_casEqual (u : State) (n : Nat) (cmp : Wide) (hl : u.live) :
    StoredAt u (u.casEqual n cmp) u.opAd n (casResponse 0#2 cmp) where
  answered := answered_of_ports (by simp [State.casEqual]) hl
  clock := ⟨by simp [State.casEqual], by simp [State.casEqual]⟩
  slots := by simp [State.casEqual]
  glock := by simp [State.casEqual]
  cfg := by simp [State.casEqual]
  hostQueue := by simp [State.casEqual]
  outside b hb := memByte_memWrite_outside u.mem u.opAd n _ hb
  otherFrames f hf := keyFlags_setRC_ne (u.storeRmw u.opAd n _ _) u.opAd hf

theorem storedAt_casUnequal (u : State) (n : Nat) (k : Bool) (old : Wide) (hl : u.live) :
    StoredAt u (u.casUnequal n k old) u.opAd n (mismatchResponse u.cfg k old) where
  answered := answered_of_ports (by simp [State.casUnequal]) hl
  clock := ⟨by simp [State.casUnequal], by simp [State.casUnequal]⟩
  slots := by simp [State.casUnequal]
  glock := by simp [State.casUnequal]
  cfg := by simp [State.casUnequal]
  hostQueue := by simp [State.casUnequal]
  outside b _ := by rfl
  otherFrames f hf := keyFlags_setRef_ne (u.readRmw u.opAd n old) u.opAd hf

theorem compareAndSwap_of_granted (ha : s.opAd.toNat % n = 0) (h : s.verdictFor s.opAd n = .granted) (k : Bool) :
    s.compareAndSwap n k = s.serialize.asked.casAccess n k :=
  (if_pos ha).trans (withAccess_of_granted (s := s.serialize) h _)

theorem compareAndSwap_of_faulted {f : AccessFault} (ha : s.opAd.toNat % n = 0)
    (h : s.verdictFor s.opAd n = .faulted f) (k : Bool) :
    s.compareAndSwap n k = s.serialize.asked.raisePgm (accessCode f) :=
  (if_pos ha).trans (withAccess_of_faulted (s := s.serialize) h _)

/-- The response of a mismatch, in the terms of the claims. -/
theorem mismatchResponse_eq (c : Config) (k : Bool) (old : Wide) :
    mismatchResponse c k old =
      if k = true then ⟨.icpt, c.icptCsReason, 1#2, true, false, old⟩ else ⟨.done, 0#16, 1#2, true, false, old⟩ := by
  cases k <;> rfl

/-- Settles O52: by the access check, then by whether the operand is the compare value. -/
theorem compareAndSwapSwapsOrReloads : Obligations.CompareAndSwapSwapsOrReloads := by
  intro i n s hwidth hpair hl hmem haligned a
  have hn : n ≤ 16 := le_of_casWidth hwidth
  have hexec := exec_of_casWidth s hwidth hpair
  have hu : Checked s s.serialize.asked := checked_serialize_asked s
  refine ⟨fun f hfault => ?fault, fun hgranted => ?_⟩
  case fault =>
    obtain ⟨t, hrun, hanswer, hkept, hqueue, hverdicts, hhist⟩ :=
      faults_of_exec_eq hu hl (hexec.trans (congrArg _ (compareAndSwap_of_faulted haligned hfault _)))
    exact ⟨t, hrun, hanswer, hkept, hqueue, by simpa using hverdicts, by simpa using hhist⟩
  rw [compareAndSwap_of_granted haligned hgranted] at hexec
  have hoperand : memRead s.mem a n = lowBytes n s.opA ↔
      ∀ j < n, s.byteAt (a + BitVec.ofNat 64 j) = operandByte n s.request.a j := by
    rw [lowBytes_eq_operandValue]
    exact memRead_eq_operandValue_iff s.mem a hn s.request.a
  refine ⟨fun hequal => ?equal, fun ⟨j, hj, hdiffers⟩ => ?unequal⟩
  case equal =>
    have hvalue := hoperand.2 hequal
    have hrun : exec i s = .next (s.serialize.asked.casEqual n (operandValue n s.request.a)) := by
      rw [hexec, ← lowBytes_eq_operandValue]
      exact congrArg _ ((if_pos hvalue).trans (congrArg _ hvalue))
    refine ⟨_, hrun, storedAt_of_checked hu (storedAt_casEqual _ n _ (live_of_checked hu hl)), fun j hj => ?bytes,
      ?flags, ?verdicts, ?history⟩
    case bytes =>
      rw [← operandByte_operandValue hn hj s.request.b, ← lowBytes_eq_operandValue n s.request.b]
      exact memByte_memWrite_inside a _ hmem (by omega) hj
    case flags => exact keyFlags_setRC_self (s.serialize.asked.storeRmw a n _ _) a
    case verdicts => simp [State.casEqual]
    case history =>
      rw [← lowBytes_eq_operandValue n s.request.b]
      rfl
  case unequal =>
    have hrun : exec i s = .next (s.serialize.asked.casUnequal n i.interceptBit (memRead s.mem a n)) :=
      hexec.trans (congrArg _ (if_neg fun hvalue => hdiffers (hoperand.1 hvalue j hj)))
    refine ⟨_, memRead s.mem a n, hrun, operandValue_memRead s.mem a hn,
      fun j hj => operandByte_memRead s.mem a hn hj, ?stored, fun _ => rfl, ?flags, ?verdicts, ?history⟩
    case stored =>
      rw [← mismatchResponse_eq]
      exact storedAt_of_checked hu (storedAt_casUnequal _ n _ _ (live_of_checked hu hl))
    case flags => exact keyFlags_setRef_self (s.serialize.asked.readRmw a n _) a
    case verdicts => simp [State.casUnequal]
    case history => rfl

end Sys2Proof.Machine
end

section
/-! Proofs about family 5, the long-operation contracts (spec/45_long_contracts.md): each command answers what the
exact integer formula of its rule says, and nothing of the block changes. -/

namespace Sys2Proof.Machine

/-! ### Commands of the family (R276) -/

theorem longForm_of_present {s : State} (h : s.cfg.hasLong = true) (run : State → State) : s.longForm run = run s :=
  if_pos h

/-- With the family present a command's answer is that of its body. -/
theorem answers_of_longForm {i : Instr} {s : State} {run : State → State} {r : Response}
    (h : exec i s = .next (s.longForm run)) (hlong : s.cfg.hasLong = true) (hrun : OnlyAnswered s (run s) r) :
    ∃ t, exec i s = .next t ∧ OnlyAnswered s t r :=
  ⟨run s, h.trans (congrArg _ (longForm_of_present hlong run)), hrun⟩

theorem wideOfWord_eq_ofNat (v : Word) : wideOfWord v = BitVec.ofNat 128 v.toNat :=
  wide_eq_ofNat (toNat_wideOfWord v)

theorem toNat_opALow (s : State) : s.opALow.toNat = s.request.a.toNat % 2 ^ 64 := etodLow_toNat s.request.a

theorem toNat_opBLow (s : State) : s.opBLow.toNat = s.request.b.toNat % 2 ^ 64 := etodLow_toNat s.request.b

/-! ### The signed forms (R277, R278) -/

section
variable {ovf : Bool} {P : Prop} [Decidable P]

theorem signedCc_eq_signedCode (h : ovf = true ↔ P) (r : Word) : signedCc ovf r = signedCode P r := by
  have hzero : r = 0#64 ↔ r.toInt = 0 := by rw [← BitVec.toInt_inj, BitVec.toInt_zero]
  simp only [signedCc, signedCode, h, hzero]

/-- The interrupt over the completed result, or the result: what the claims call the signed answer. -/
theorem onlyAnswered_endSigned {s : State} (h : ovf = true ↔ P) (m : Bool) (r : Word) (hl : s.live) :
    OnlyAnswered s (s.endSigned m ovf r) (signedAnswer P m r) := by
  rcases endSigned_cases s m ovf r with ⟨hovf, hm, hend⟩ | ⟨hneither, hend⟩
  case inl =>
    have hresponse : Response.interrupt .fixedPointOverflow (signedResponse ovf r) = signedAnswer P m r := by
      rw [signedAnswer, if_pos ⟨h.1 hovf, hm⟩, if_pos ⟨h.1 hovf, hm⟩, ← signedCc_eq_signedCode h,
        ← wideOfWord_eq_ofNat]
      rfl
    exact hend ▸ hresponse ▸ onlyAnswered_takeInterrupt s _ _ hl
  case inr =>
    have hdone : ¬(P ∧ m = true) := by simpa [h] using hneither
    have hresponse : signedResponse ovf r = signedAnswer P m r := by
      rw [signedAnswer, if_neg hdone, if_neg hdone, ← signedCc_eq_signedCode h, ← wideOfWord_eq_ofNat]
      rfl
    exact hend ▸ hresponse ▸ onlyAnswered_complete s _ hl

end

theorem signedOverflow_iff (t : Int) : signedOverflow t = true ↔ t < -2 ^ 63 ∨ t > 2 ^ 63 - 1 := by
  simp [signedOverflow]

/-- Settles O54: the model tests the exact sum and difference for overflow and answers their low 64 bits. -/
theorem signedAddAndSubtract : Obligations.SignedAddAndSubtract := by
  intro p m s hl hlong
  exact ⟨encode_eq_commandWord (.agl p m), encode_eq_commandWord (.sgl p m),
    answers_of_longForm rfl hlong (onlyAnswered_endSigned (signedOverflow_iff _) m _ hl),
    answers_of_longForm rfl hlong (onlyAnswered_endSigned (signedOverflow_iff _) m _ hl)⟩

/-! ### The logical forms (R282, R283) -/

theorem logicalCc_eq_logicalCode {carry : Bool} {P : Prop} [Decidable P] (h : carry = true ↔ P) (r : Word) :
    logicalCc carry r = logicalCode P r := by
  have hzero : r = 0#64 ↔ r.toNat = 0 := by rw [← BitVec.toNat_inj, BitVec.toNat_zero]
  simp only [logicalCc, logicalCode, ← h, ← hzero]
  by_cases hr : r = 0#64 <;> cases carry <;> simp [hr]

/-- The answer of a logical form with the given carry or no-borrow and result. -/
def logicalAnswer (carry : Prop) [Decidable carry] (r : Word) : Response :=
  ⟨.done, 0#16, logicalCode carry r, true, false, BitVec.ofNat 128 r.toNat⟩

theorem logicalResponse_eq {x : Word × Bool} {P : Prop} [Decidable P] {r : Word} (hvalue : x.1 = r)
    (hcarry : x.2 = true ↔ P) : logicalResponse x = logicalAnswer P r := by
  rw [logicalAnswer, ← logicalCc_eq_logicalCode hcarry, ← hvalue, ← wideOfWord_eq_ofNat]
  rfl

/-- The two steps of the sum, the carry in and then the addend, make the exact sum of the three. -/
theorem addLogicalCarry_fst (a b : Word) (c : Bool) :
    (addLogicalCarry a b c).1 = BitVec.ofNat 64 (a.toNat + b.toNat + c.toNat) := by
  apply BitVec.eq_of_toNat_eq
  cases c with
  | false => simp [addLogicalCarry, addCarryIn]
  | true =>
    simp only [addLogicalCarry, addCarryIn, if_true, BitVec.toNat_add, BitVec.toNat_ofNat, Bool.toNat_true]
    omega

/-- The one or the other step carries exactly when the exact sum has a carry. -/
theorem addLogicalCarry_snd (a b : Word) (c : Bool) :
    (addLogicalCarry a b c).2 = true ↔ 2 ^ 64 ≤ a.toNat + b.toNat + c.toNat := by
  have ha := a.isLt
  have hb := b.isLt
  cases c with
  | false => simp [addLogicalCarry, addCarryIn]
  | true =>
    simp only [addLogicalCarry, addCarryIn, if_true, BitVec.toNat_add, BitVec.toNat_ofNat, Bool.toNat_true,
      Bool.or_eq_true, decide_eq_true_iff]
    omega

/-- The two steps of the difference, the borrow in and then the subtrahend, make the exact difference. -/
theorem subLogicalBorrow_fst (a b : Word) (bw : Bool) :
    (subLogicalBorrow a b bw).1 = BitVec.ofInt 64 (a.toNat - b.toNat - bw.toNat) := by
  apply BitVec.eq_of_toNat_eq
  have ha := a.isLt
  have hb := b.isLt
  cases bw <;> simp [subLogicalBorrow, subBorrowIn, BitVec.toNat_sub, BitVec.toNat_ofInt] <;> omega

/-- Neither step borrows exactly when the exact difference is not negative. -/
theorem subLogicalBorrow_snd (a b : Word) (bw : Bool) :
    (subLogicalBorrow a b bw).2 = true ↔ (0 : Int) ≤ a.toNat - b.toNat - bw.toNat := by
  have ha := a.isLt
  have hb := b.isLt
  cases bw with
  | false => simp [subLogicalBorrow, subBorrowIn]
  | true =>
    simp only [subLogicalBorrow, subBorrowIn, if_true, BitVec.toNat_sub, BitVec.toNat_ofNat, Bool.toNat_true,
      Bool.and_eq_true, decide_eq_true_iff]
    omega

/-- The carry of a condition code is its weight-2 bit (R277). -/
theorem toNat_getLsbD_one : ∀ cci : BitVec 2, (cci.getLsbD 1).toNat = cci.toNat / 2 := by decide

theorem answers_alcgl (p : Bool) (cci : BitVec 2) {s : State} (hl : s.live) (hlong : s.cfg.hasLong = true)
    {sum : Nat} (hsum : s.request.a.toNat % 2 ^ 64 + s.request.b.toNat % 2 ^ 64 + cci.toNat / 2 = sum) :
    ∃ t, exec (.alcgl p cci) s = .next t ∧
      OnlyAnswered s t (logicalAnswer (2 ^ 64 ≤ sum) (BitVec.ofNat 64 sum)) := by
  rw [← toNat_opALow, ← toNat_opBLow, ← toNat_getLsbD_one] at hsum
  have hresponse := logicalResponse_eq (addLogicalCarry_fst s.opALow s.opBLow (cci.getLsbD 1))
    (addLogicalCarry_snd s.opALow s.opBLow (cci.getLsbD 1))
  simp only [hsum] at hresponse
  exact answers_of_longForm rfl hlong (hresponse ▸ onlyAnswered_complete s _ hl)

theorem answers_slbgl (p : Bool) (cci : BitVec 2) {s : State} (hl : s.live) (hlong : s.cfg.hasLong = true)
    {d : Int} (hd : (s.request.a.toNat % 2 ^ 64 : Nat) - (s.request.b.toNat % 2 ^ 64 : Nat) -
      (1 - (cci.toNat / 2 : Nat)) = d) :
    ∃ t, exec (.slbgl p cci) s = .next t ∧ OnlyAnswered s t (logicalAnswer (0 ≤ d) (BitVec.ofInt 64 d)) := by
  have hborrow : ((!cci.getLsbD 1).toNat : Int) = 1 - (cci.toNat / 2 : Nat) := by
    rw [← toNat_getLsbD_one]
    cases cci.getLsbD 1 <;> rfl
  rw [← hborrow, ← toNat_opALow, ← toNat_opBLow] at hd
  have hresponse := logicalResponse_eq (subLogicalBorrow_fst s.opALow s.opBLow (!cci.getLsbD 1))
    (subLogicalBorrow_snd s.opALow s.opBLow (!cci.getLsbD 1))
  simp only [hd] at hresponse
  exact answers_of_longForm rfl hlong (hresponse ▸ onlyAnswered_complete s _ hl)

/-- The bus holds a difference of 64 bits as the integer it is modulo `2^64`. -/
theorem ofNat_toNat_ofInt (d : Int) :
    BitVec.ofNat 128 (BitVec.ofInt 64 d).toNat = BitVec.ofInt 128 (d % 2 ^ 64) := by
  rw [BitVec.toNat_ofInt, ← BitVec.ofInt_natCast, Int.toNat_of_nonneg (Int.emod_nonneg _ (by decide))]
  rfl

/-- Settles O55: by the exact sum and the exact difference. -/
theorem logicalAddAndSubtract : Obligations.LogicalAddAndSubtract := by
  intro p cci s hl hlong
  refine ⟨encode_eq_commandWord (.alcgl p cci), encode_eq_commandWord (.slbgl p cci), ?sum, ?difference⟩
  case sum => simpa only [logicalAnswer, BitVec.toNat_ofNat] using answers_alcgl p cci hl hlong rfl
  case difference => simpa only [logicalAnswer, ofNat_toNat_ofInt] using answers_slbgl p cci hl hlong rfl

/-! ### The chain of three sums (R284) -/

/-- The bus of a sum holds its low 64 bits. -/
theorem toNat_r_logicalAnswer (P : Prop) [Decidable P] (sum : Nat) :
    (logicalAnswer P (BitVec.ofNat 64 sum)).r.toNat = sum % 2 ^ 64 := by
  simp only [logicalAnswer, BitVec.toNat_ofNat]
  omega

theorem toNat_logicalCode_div (P : Prop) [Decidable P] (r : Word) :
    (logicalCode P r).toNat / 2 = if P then 1 else 0 := by
  unfold logicalCode
  split <;> split <;> rfl

/-- The weight-2 bit of its condition code is the rest of a sum of 65 bits. -/
theorem toNat_cc_logicalAnswer_div {sum : Nat} (h : sum < 2 ^ 65) (r : Word) :
    (logicalAnswer (2 ^ 64 ≤ sum) r).cc.toNat / 2 = sum / 2 ^ 64 := by
  rw [logicalAnswer, toNat_logicalCode_div]
  split <;> omega

/-- One link of a chain: the answer and its carry are the two digits of the exact sum. -/
theorem digits_alcgl (p : Bool) (cci : BitVec 2) {s : State} (hl : s.live) (hlong : s.cfg.hasLong = true) :
    ∃ t r, exec (.alcgl p cci) s = .next t ∧ Answered s t r ∧ r.r.toNat < 2 ^ 64 ∧
      r.cc.toNat / 2 * 2 ^ 64 + r.r.toNat =
        s.request.a.toNat % 2 ^ 64 + s.request.b.toNat % 2 ^ 64 + cci.toNat / 2 := by
  obtain ⟨t, hrun, hanswer⟩ := answers_alcgl p cci hl hlong rfl
  refine ⟨t, _, hrun, hanswer.answered, ?bound, ?digits⟩
  case bound =>
    rw [toNat_r_logicalAnswer]
    exact Nat.mod_lt _ (by decide)
  case digits =>
    have hcci := cci.isLt
    rw [toNat_r_logicalAnswer, toNat_cc_logicalAnswer_div (by omega)]
    exact Nat.div_add_mod' _ _

/-- Settles O58: three links, each with the carry of the one before, are the long addition of three digits. -/
theorem addWithCarryChains : Obligations.AddWithCarryChains := by
  intro p q r s0 s1 s2 hl0 hl1 hl2 hlong0 hlong1 hlong2
  obtain ⟨t0, r0, hrun0, hanswer0, hbound0, hdigits0⟩ := digits_alcgl p 0#2 hl0 hlong0
  obtain ⟨t1, r1, hrun1, hanswer1, hbound1, hdigits1⟩ := digits_alcgl q r0.cc hl1 hlong1
  obtain ⟨t2, r2, hrun2, hanswer2, hbound2, hdigits2⟩ := digits_alcgl r r1.cc hl2 hlong2
  have hnone : (0#2).toNat / 2 = 0 := rfl
  refine ⟨t0, t1, t2, r0, r1, r2, hrun0, hanswer0, hrun1, hanswer1, hrun2, hanswer2, ?_⟩
  dsimp only
  omega

/-! ### The arithmetic shift (R290) -/

theorem opLongShift_eq (s : State) : s.opLongShift = s.request.b.toNat % 64 := by
  simp [State.opLongShift, BitVec.extractLsb'_toNat]

/-- The sign bit as a number. -/
theorem ite_msb_eq_mul (a : Word) (k : Nat) : (if a.msb then k else 0) = a.toNat / 2 ^ 63 * k := by
  have ha := a.isLt
  rw [BitVec.msb_eq_decide]
  split
  case isTrue h =>
    have hsign : a.toNat / 2 ^ 63 = 1 := by have := of_decide_eq_true h; omega
    rw [hsign, Nat.one_mul]
  case isFalse h =>
    have hsign : a.toNat / 2 ^ 63 = 0 := by have := of_decide_eq_false (Bool.eq_false_iff.2 h); omega
    rw [hsign, Nat.zero_mul]

theorem longShiftResult_eq (a : Word) (n : Nat) :
    longShiftResult a n = BitVec.ofNat 64 (a.toNat / 2 ^ 63 * 2 ^ 63 + longShiftWide a n % 2 ^ 63) := by
  rw [longShiftResult, ite_msb_eq_mul]

theorem longShiftOverflow_iff (a : Word) (n : Nat) :
    longShiftOverflow a n = true ↔ longShiftWide a n / 2 ^ 63 ≠ a.toNat / 2 ^ 63 * (2 ^ n - 1) := by
  rw [longShiftOverflow, ite_msb_eq_mul, decide_eq_true_iff]

/-- Settles O56: the sign and the shifted field of the model are those of the rule. -/
theorem signedShiftLeft : Obligations.SignedShiftLeft := by
  intro p m s hl hlong
  refine ⟨encode_eq_commandWord (.slagl p m), ?_⟩
  intro sign n w r
  have hn : s.opLongShift = n := opLongShift_eq s
  have hsign : s.opALow.toNat / 2 ^ 63 = sign := by rw [toNat_opALow]; omega
  have hwide : longShiftWide s.opALow s.opLongShift = w := by
    rw [longShiftWide, hn, toNat_opALow, Nat.mod_mod_of_dvd _ (Nat.pow_dvd_pow 2 (by decide))]
  have hresult : longShiftResult s.opALow s.opLongShift = r := by rw [longShiftResult_eq, hsign, hwide]
  have hovf : longShiftOverflow s.opALow s.opLongShift = true ↔ w / 2 ^ 63 ≠ sign * (2 ^ n - 1) := by
    rw [longShiftOverflow_iff, hwide, hsign, hn]
  exact answers_of_longForm rfl hlong (hresult ▸ onlyAnswered_endSigned hovf m _ hl)

/-! ### Branch on count (R295 to R297) -/

theorem toNat_sub_one (count : Word) : (count - 1#64).toNat = (count.toNat + (2 ^ 64 - 1)) % 2 ^ 64 := by
  simp [BitVec.toNat_sub, Nat.add_comm]

theorem mkEtod_eq_ofNat (high low : Word) : mkEtod high low = BitVec.ofNat 128 (high.toNat * 2 ^ 64 + low.toNat) :=
  wide_eq_ofNat (mkEtod_toNat high low)

theorem ofInt_pair_eq_ofNat (high low : Nat) :
    BitVec.ofInt 128 (high * 2 ^ 64 + low) = BitVec.ofNat 128 (high * 2 ^ 64 + low) := by
  rw [← BitVec.ofInt_natCast, Nat.cast_add, Nat.cast_mul, Nat.cast_pow, Nat.cast_ofNat]

/-- Taken: the target above the count left. -/
theorem branchResponse_of_ne {count : Word} (h : (count - 1#64).toNat ≠ 0) (next target : Word) :
    branchResponse count next target =
      ⟨.done, 0#16, 0#2, false, true, BitVec.ofNat 128 (target.toNat * 2 ^ 64 + (count - 1#64).toNat)⟩ := by
  have hleft : count - 1#64 ≠ 0#64 := fun hzero => h (congrArg BitVec.toNat hzero)
  rw [← mkEtod_eq_ofNat, branchResponse, decide_eq_true hleft]
  rfl

/-- Not taken: the next sequential address above a count of 0. -/
theorem branchResponse_of_eq {count : Word} (h : (count - 1#64).toNat = 0) (next target : Word) :
    branchResponse count next target =
      ⟨.done, 0#16, 0#2, false, false, BitVec.ofNat 128 (next.toNat * 2 ^ 64)⟩ := by
  have hleft : count - 1#64 = 0#64 := BitVec.eq_of_toNat_eq h
  have hbus : BitVec.ofNat 128 (next.toNat * 2 ^ 64) = mkEtod next (count - 1#64) := by
    rw [mkEtod_eq_ofNat, h, Nat.add_zero]
  rw [hbus, branchResponse, decide_eq_false (not_not.2 hleft)]
  rfl

/-- A displacement is added as a signed number, modulo `2^64`. -/
theorem toNat_add_eq_emod (a d : Word) : ((a + d).toNat : Int) = (a.toNat + d.toInt) % 2 ^ 64 := by
  rw [BitVec.toNat_add, BitVec.toInt_eq_toNat_cond]
  split <;> omega

/-- Settles O57: by whether a count is left; the two commands differ in the target only. -/
theorem branchOnCount : Obligations.BranchOnCount := by
  intro p s hl hlong
  refine ⟨encode_eq_commandWord (.bctgl p), encode_eq_commandWord (.brctgl p), ?_⟩
  intro count left next target relative
  have hleft : (s.opALow - 1#64).toNat = left := by rw [toNat_sub_one, toNat_opALow]
  have hnext : s.opAHigh.toNat = next := toNat_opAHigh s
  have htarget : s.opBLow.toNat = target := toNat_opBLow s
  have hrelative : ((s.opAd + s.opBLow).toNat : Int) = relative := toNat_add_eq_emod s.opAd s.opBLow
  refine ⟨fun hne => ?taken, fun heq => ?notTaken⟩
  case taken =>
    have hresponse := branchResponse_of_ne (hleft.trans_ne hne) s.opAHigh
    rw [hleft] at hresponse
    refine ⟨answers_of_longForm rfl hlong ?absolute, answers_of_longForm rfl hlong ?relative⟩
    case absolute => exact htarget ▸ hresponse s.opBLow ▸ onlyAnswered_complete s _ hl
    case relative =>
      rw [← hrelative, ofInt_pair_eq_ofNat]
      exact hresponse (s.opAd + s.opBLow) ▸ onlyAnswered_complete s _ hl
  case notTaken =>
    have hresponse := branchResponse_of_eq (hleft.trans heq) s.opAHigh
    rw [hnext] at hresponse
    exact ⟨answers_of_longForm rfl hlong (hresponse s.opBLow ▸ onlyAnswered_complete s _ hl),
      answers_of_longForm rfl hlong (hresponse (s.opAd + s.opBLow) ▸ onlyAnswered_complete s _ hl)⟩

end Sys2Proof.Machine
end

section
/-! Proofs about the exceptions (spec/60_exceptions.md): how a command ends, what privilege asks for, what a program
interrupt leaves as it was, and the causes of each program-interruption code. -/

namespace Sys2Proof

/-! ### The rejections of the decoder (R320) -/

/-- Why a word is rejected: its operation code is not assigned, it is a privileged command's without the privilege
bit, or its fields are those of no command. -/
theorem decode_eq_error_cases {hasLong : Bool} {w : CmdWord} {e : Rejection} (h : decode hasLong w = .error e) :
    (e = .operation ∧ opcAssigned hasLong (unpackFields w).opc = false) ∨
      (e = .privilegedOperation ∧ opcPrivileged (unpackFields w).opc = true ∧ (unpackFields w).p = false) ∨
      (e = .specification ∧ opcAssigned hasLong (unpackFields w).opc = true ∧ ∀ i, encode i ≠ w) := by
  cases ha : opcAssigned hasLong (unpackFields w).opc with
  | false => exact .inl ⟨(Except.error.inj ((decode_of_unassigned ha).symm.trans h)).symm, rfl⟩
  | true =>
    have hnone : ∀ i, encode i ≠ w := fun i hi => by simp [decode_of_encode ha hi] at h
    have he := Except.error.inj ((decode_of_no_command ha hnone).symm.trans h)
    split at he
    case isTrue hpriv => exact .inr (.inl ⟨he.symm, by simpa using hpriv⟩)
    case isFalse => exact .inr (.inr ⟨he.symm, rfl, hnone⟩)

theorem opcAssigned_of_decode {hasLong : Bool} {w : CmdWord} {i : Instr} (h : decode hasLong w = .ok i) :
    opcAssigned hasLong (unpackFields w).opc = true := by
  by_contra ha
  simp [decode_of_unassigned (Bool.eq_false_iff.2 ha)] at h

theorem opcAssigned_of_privileged (hasLong : Bool) {opc : BitVec 8} (h : opcPrivileged opc = true) :
    opcAssigned hasLong opc = true := by
  have hsub : ∀ n ∈ [0x20, 0x21, 0x24, 0x25, 0x28, 0x31], n ∈ opcodeNumbers hasLong := by
    cases hasLong <;> decide
  exact (opcAssigned_eq_true_iff hasLong opc).2 (hsub _ ((Machine.opcPrivileged_eq_true_iff opc).1 h))

/-! ### Privilege (R330) -/

theorem pBit_eq_p_encodeFields (i : Instr) : i.pBit = (encodeFields i).p := by
  cases i <;> rfl

theorem isPrivileged_eq_opcPrivileged (i : Instr) : i.isPrivileged = opcPrivileged (encodeFields i).opc := by
  cases i <;> rfl

/-- The seven commands of R330. -/
theorem isPrivileged_iff (i : Instr) : i.isPrivileged = true ↔
    ∃ p c, i ∈ [.csrrst p, .setrateF p, .setrateG p, .setclk p, .adjoff p, .setepo p c, .setcpt p c] := by
  constructor
  · intro h
    cases i with
    | csrrst p | setrateF p | setrateG p | setclk p | adjoff p => exact ⟨p, 0#8, by simp⟩
    | setepo p c | setcpt p c => exact ⟨p, c, by simp⟩
    | _ => cases h
  · rintro ⟨p, c, hmem⟩
    simp only [List.mem_cons, List.not_mem_nil, or_false] at hmem
    rcases hmem with rfl | rfl | rfl | rfl | rfl | rfl | rfl <;> rfl

namespace Machine

/-- Only the meanings of the privileged commands look at the `P` bit. -/
theorem exec_withP {i : Instr} (h : i.isPrivileged = false) (q : Bool) (s : State) :
    exec (i.withP q) s = exec i s := by
  cases i with
  | csrrst | setrateF | setrateG | setclk | adjoff | setepo | setcpt => cases h
  | _ => rfl

/-- Settles O14: the word is rejected or run to the same interrupt, and no other meaning looks at `P`. -/
theorem privilegedCommandsNeedSupervisorState : Obligations.PrivilegedCommandsNeedSupervisorState := by
  refine ⟨isPrivileged_iff, fun s hl hopc hp => ?word,
    fun i s => ⟨fun hi hp hl => ?command, fun hi q => exec_withP hi q s⟩⟩
  case word =>
    rw [← (unpackFields_toNat s.request.cw).1, ← opcPrivileged_eq_true_iff] at hopc
    exact ⟨_, runCommand_of_unprivileged (opcAssigned_of_privileged _ hopc) hopc hp, onlyAnswered_raisePgm s _ hl⟩
  case command =>
    exact interrupts_of_unprivileged (isPrivileged_eq_opcPrivileged i ▸ hi) (pBit_eq_p_encodeFields i ▸ hp) hl

end Machine

end Sys2Proof

namespace Sys2Proof.Machine

variable {i : Instr} {s t u : State} {r : Response} {c : PgmCode} {k : Response}

/-! ### The causes of an interrupt (R311) -/

/-- The exact result of a signed form lies outside its range, under the mask `M = 1` (R315). -/
inductive MaskedOverflow : Instr → State → Prop where
  | sum {s : State} (p : Bool) (ovf : signedOverflow (s.opALow.toInt + s.opBLow.toInt) = true) :
      MaskedOverflow (.agl p true) s
  | difference {s : State} (p : Bool) (ovf : signedOverflow (s.opALow.toInt - s.opBLow.toInt) = true) :
      MaskedOverflow (.sgl p true) s
  | shift {s : State} (p : Bool) (ovf : longShiftOverflow s.opALow s.opLongShift = true) :
      MaskedOverflow (.slagl p true) s

/-- The interrupts of a command `i` run from `s`: the state `u` the interrupt is taken in, its code, what the command
completed before it, and the cause. -/
inductive Interrupt (i : Instr) (s : State) : State → PgmCode → Response → Prop where
  | absentFamily (long : i.isLong = true) (absent : s.cfg.hasLong = false) :
      Interrupt i s s .operation Response.ok
  | unprivileged (privileged : i.isPrivileged = true) (user : i.pBit = false) :
      Interrupt i s s .privilegedOperation Response.ok
  | absentSlot (slotted : (encodeFields i).opc.toNat ∈ slotOpcodes)
      (absent : s.cpus.length ≤ (encodeFields i).cpu.toNat) : Interrupt i s s .specification Response.ok
  | oddPair (odd : i.pairEven = false) : Interrupt i s s .specification Response.ok
  | misaligned {n : Nat} (width : i.casWidth = some n) (unaligned : s.opAd.toNat % n ≠ 0) :
      Interrupt i s s .specification Response.ok
  | lockFault {l : LockKind} {f : AccessFault} (kind : i.lockKind = some l)
      (fault : s.verdictFor (s.site l).1 1 = .faulted f) : Interrupt i s s.asked (accessCode f) Response.ok
  | casFault {n : Nat} {f : AccessFault} (width : i.casWidth = some n)
      (fault : s.verdictFor s.opAd n = .faulted f) : Interrupt i s s.serialize.asked (accessCode f) Response.ok
  | overflow (w : Word) (masked : MaskedOverflow i s) :
      Interrupt i s s .fixedPointOverflow (signedResponse true w)

theorem checked_of_interrupt (h : Interrupt i s u c k) : Checked s u := by
  cases h with
  | lockFault => exact checked_asked s
  | casFault => exact checked_serialize_asked s
  | _ => exact checked_refl s

theorem accessCode_ne_specialOperation (f : AccessFault) : accessCode f ≠ .specialOperation := by
  cases f <;> decide

theorem ne_specialOperation_of_interrupt (h : Interrupt i s u c k) : c ≠ .specialOperation := by
  cases h with
  | lockFault | casFault => exact accessCode_ne_specialOperation _
  | _ => decide

/-- Every interrupt but the overflow suppresses its command (R317). -/
theorem suppressing_of_interrupt (h : Interrupt i s u c k) (hc : c ≠ .fixedPointOverflow) : k = Response.ok := by
  cases h with
  | overflow => exact absurd rfl hc
  | _ => rfl

/-- The one trace an interrupt leaves is the first `Serialize` of a `CAS` (R317). -/
theorem history_of_interrupt (h : Interrupt i s u c k) :
    u.history = s.history ∨ u.history = .ser s.active :: s.history ∧ ∃ n f, i.casWidth = some n ∧
      s.verdictFor s.request.ad n = .faulted f ∧ c.pic = faultNumber f := by
  cases h with
  | casFault width fault => exact .inr ⟨by simp, _, _, width, fault, pic_accessCode _⟩
  | lockFault => exact .inl (asked_history s)
  | _ => exact .inl rfl

/-! ### How a command ends (R310) -/

/-- No port has been answered or made to wait between `s` and `u`, and the issuing port is the same. -/
def SamePorts (s u : State) : Prop := u.ports = s.ports ∧ u.active = s.active

@[simp] theorem samePorts_iff (s u : State) : SamePorts s u ↔ u.ports = s.ports ∧ u.active = s.active := Iff.rfl

theorem samePorts_of_checked (h : Checked s u) : SamePorts s u := ⟨h.ports, h.active⟩

/-- A `DONE` response carries no code, and tells of a branch only for a branch on count. -/
structure DoneReply (i : Instr) (r : Response) : Prop where
  st : r.st = .done
  pic : r.pic = 0#16
  branch : r.tk = true → ∃ p, i = .bctgl p ∨ i = .brctgl p

theorem doneReply_of_not_taken (hst : r.st = .done) (hpic : r.pic = 0#16) (htk : r.tk = false) : DoneReply i r where
  st := hst
  pic := hpic
  branch h := by simp [htk] at h

/-- The four endings of R310 and the wait of R341, each with the commands that have it; `u` is the state the command
ends in. -/
inductive Conclusion (i : Instr) (s : State) : State → Prop where
  | done {u : State} {r : Response} (same : SamePorts s u) (reply : DoneReply i r) :
      Conclusion i s (u.complete r)
  | busy {u : State} (same : SamePorts s u) (tries : i.isTryLock = true) :
      Conclusion i s (u.complete Response.busy)
  | intercepted {u : State} {n : Nat} (same : SamePorts s u) (width : i.casWidth = some n)
      (bit : i.interceptBit = true) (old : Wide) : Conclusion i s (u.complete (mismatchResponse s.cfg true old))
  | interrupted {u : State} {c : PgmCode} {k : Response} (cause : Interrupt i s u c k) :
      Conclusion i s (u.takeInterrupt c k)
  | waits {u : State} (same : SamePorts s u) (mayWait : i.mayWait = true) :
      Conclusion i s u.hold

theorem conclusion_raisePgm (h : Interrupt i s u c Response.ok) : Conclusion i s (u.raisePgm c) :=
  .interrupted h

theorem conclusion_value (v : Wide) (same : SamePorts s u) :
    Conclusion i s (u.complete (Response.value v)) :=
  .done same (doneReply_of_not_taken rfl rfl rfl)

theorem conclusion_ok (same : SamePorts s u) :
    Conclusion i s (u.complete Response.ok) :=
  conclusion_value 0#128 same

theorem conclusion_privileged {p : Bool} {run : State → State} (hi : i.isPrivileged = true) (hp : i.pBit = p)
    (h : Conclusion i s (run s)) : Conclusion i s (s.privileged p run) := by
  rcases privileged_cases s p run with ⟨_, e⟩ | ⟨hfalse, e⟩ <;> rw [e]
  · exact h
  · exact conclusion_raisePgm (.unprivileged hi (hp.trans hfalse))

theorem conclusion_longForm {run : State → State} (hi : i.isLong = true) (h : Conclusion i s (run s)) :
    Conclusion i s (s.longForm run) := by
  rcases longForm_cases s run with ⟨_, e⟩ | ⟨habsent, e⟩ <;> rw [e]
  · exact h
  · exact conclusion_raisePgm (.absentFamily hi habsent)

theorem conclusion_withSlot {opc cpu : BitVec 8} {p : Bool} {run : State → State}
    (hi : encodeFields i = fieldsFC opc p cpu) (hopc : opc.toNat ∈ slotOpcodes) (h : Conclusion i s (run s)) :
    Conclusion i s (s.withSlot cpu run) := by
  rcases withSlot_cases s cpu run with ⟨_, e⟩ | ⟨habsent, e⟩ <;> rw [e]
  · exact h
  · exact conclusion_raisePgm (.absentSlot (by rwa [hi]) (by rwa [hi]))

theorem conclusion_withPair {r1 r3 : BitVec 4} {run : State → State} (hi : i.pairEven = pairOk r1 r3)
    (h : Conclusion i s (run s)) : Conclusion i s (s.withPair r1 r3 run) := by
  rcases withPair_cases s r1 r3 run with ⟨_, e⟩ | ⟨hodd, e⟩ <;> rw [e]
  · exact h
  · exact conclusion_raisePgm (.oddPair (hi.trans hodd))

theorem conclusion_endSigned {m ovf : Bool} (hi : ovf = true → m = true → MaskedOverflow i s) (w : Word) :
    Conclusion i s (s.endSigned m ovf w) := by
  rcases endSigned_cases s m ovf w with ⟨rfl, hm, e⟩ | ⟨_, e⟩ <;> rw [e]
  · exact .interrupted (.overflow w (hi rfl hm))
  · exact .done ⟨rfl, rfl⟩ (doneReply_of_not_taken rfl rfl rfl)

theorem conclusion_rewriteLockByte (a : Word) (v : Byte) (same : SamePorts s u) :
    Conclusion i s (u.rewriteLockByte a v) :=
  conclusion_ok (by simpa using same)

theorem conclusion_lock {l : LockKind} (hw : i.mayWait = true) (hi : i.lockKind = some l) :
    Conclusion i s (s.lock l) := by
  rcases lock_cases s l with ⟨_, f, hfault, e⟩ | ⟨u, hu, hbit⟩
  · exact e ▸ conclusion_raisePgm (.lockFault hi hfault)
  · have same : SamePorts s u := by
      rcases hu with ⟨_, rfl⟩ | ⟨_, _, rfl⟩ <;> simp
    rcases hbit with ⟨_, e⟩ | ⟨_, e⟩ <;> rw [e]
    · exact conclusion_rewriteLockByte _ _ same
    · exact .waits same hw

theorem conclusion_tryLock {l : LockKind} (ht : i.isTryLock = true) (hi : i.lockKind = some l) :
    Conclusion i s (s.tryLock l) := by
  rcases tryLock_cases s l with ⟨f, hfault, e⟩ | ⟨_, _, e⟩ | ⟨_, _, e⟩ <;> rw [e]
  · exact conclusion_raisePgm (.lockFault hi hfault)
  · exact conclusion_rewriteLockByte _ _ (by simp)
  · exact .busy (by simp) ht

theorem conclusion_unlock {l : LockKind} (hi : i.lockKind = some l) : Conclusion i s (s.unlock l) := by
  rcases unlock_cases s l with ⟨f, hfault, e⟩ | ⟨_, e⟩ <;> rw [e]
  · exact conclusion_raisePgm (.lockFault hi hfault)
  · exact conclusion_rewriteLockByte _ _ (by simp)

theorem conclusion_casAccess {n : Nat} (hu : Checked s u) (hi : i.casWidth = some n) :
    Conclusion i s (u.casAccess n i.interceptBit) := by
  have same := samePorts_of_checked hu
  rcases casAccess_cases u n i.interceptBit with ⟨_, e⟩ | ⟨_, e⟩ <;> rw [e]
  · exact .done (by simpa using same) (doneReply_of_not_taken rfl rfl rfl)
  · rw [State.casUnequal, hu.cfg]
    cases hbit : i.interceptBit with
    | false => exact .done (by simpa using same) (doneReply_of_not_taken rfl rfl rfl)
    | true => exact .intercepted (by simpa using same) hi hbit _

theorem conclusion_compareAndSwap {n : Nat} (hi : i.casWidth = some n) :
    Conclusion i s (s.compareAndSwap n i.interceptBit) := by
  rcases compareAndSwap_cases s n i.interceptBit with ⟨hunaligned, e⟩ | ⟨_, f, hfault, e⟩ | ⟨_, _, e⟩ <;> rw [e]
  · exact conclusion_raisePgm (.misaligned hi hunaligned)
  · exact conclusion_raisePgm (.casFault hi hfault)
  · exact conclusion_casAccess (checked_serialize_asked s) hi

/-- How every command ends, and why when it is interrupted. -/
theorem exec_conclusion (i : Instr) (s : State) : ∃ t, exec i s = .next t ∧ Conclusion i s t := by
  cases i with
  | eadd | esub | eshf | e2t | t2e | h2e | h2eF | hclk => exact ⟨_, rfl, conclusion_value _ (by simp)⟩
  | fetch | update | getrateF | getrateG | getrateT | rdcsrSt | rdcsrBo | rdcsrTv | it2e | e2it =>
    exact ⟨_, rfl, conclusion_value _ (by simp)⟩
  | csrrst | setrateF | setrateG | setclk | adjoff =>
    exact ⟨_, rfl, conclusion_privileged rfl rfl (conclusion_ok (by simp))⟩
  | getepo | todclk | getcpt | cptpnd | getit =>
    exact ⟨_, rfl, conclusion_withSlot rfl (by decide) (conclusion_value _ (by simp))⟩
  | setit => exact ⟨_, rfl, conclusion_withSlot rfl (by decide) (conclusion_ok (by simp))⟩
  | setepo | setcpt =>
    exact ⟨_, rfl, conclusion_privileged rfl rfl (conclusion_withSlot rfl (by decide) (conclusion_ok (by simp)))⟩
  | lockR | lockP | lockS => exact ⟨_, rfl, conclusion_lock rfl rfl⟩
  | trylockR | trylockP | trylockS => exact ⟨_, rfl, conclusion_tryLock rfl rfl⟩
  | unlockR | unlockP | unlockS => exact ⟨_, rfl, conclusion_unlock rfl⟩
  | gacq =>
    refine ⟨_, rfl, ?_⟩
    split
    case isTrue => exact conclusion_ok (by simp)
    case isFalse => exact .waits ⟨rfl, rfl⟩ rfl
  | grel =>
    refine ⟨_, rfl, ?_⟩
    split <;> exact conclusion_ok (by simp)
  | casW | casG => exact ⟨_, rfl, conclusion_compareAndSwap rfl⟩
  | casQ p l r1 r3 | casD p l r1 r3 =>
    exact ⟨_, rfl, conclusion_withPair (pairOk_eq_pairEven p l r1 r3).symm (conclusion_compareAndSwap rfl)⟩
  | agl p m => exact ⟨_, rfl, conclusion_longForm rfl (conclusion_endSigned (fun ho hm => hm ▸ .sum p ho) _)⟩
  | sgl p m => exact ⟨_, rfl, conclusion_longForm rfl (conclusion_endSigned (fun ho hm => hm ▸ .difference p ho) _)⟩
  | slagl p m => exact ⟨_, rfl, conclusion_longForm rfl (conclusion_endSigned (fun ho hm => hm ▸ .shift p ho) _)⟩
  | alcgl | slbgl =>
    exact ⟨_, rfl, conclusion_longForm rfl (.done ⟨rfl, rfl⟩ (doneReply_of_not_taken rfl rfl rfl))⟩
  | bctgl p => exact ⟨_, rfl, conclusion_longForm rfl (.done ⟨rfl, rfl⟩ ⟨rfl, rfl, fun _ => ⟨p, .inl rfl⟩⟩)⟩
  | brctgl p => exact ⟨_, rfl, conclusion_longForm rfl (.done ⟨rfl, rfl⟩ ⟨rfl, rfl, fun _ => ⟨p, .inr rfl⟩⟩)⟩

/-! ### The fields of a response (R101, R325) -/

/-- The fields a response of the command `i` run from `s` may use, by its ending. -/
structure ReplyFits (i : Instr) (s : State) (r : Response) : Prop where
  done : r.st = .done → r.pic = 0#16
  branch : r.tk = true → r.st = .done ∧ ∃ p, i = .bctgl p ∨ i = .brctgl p
  busy : r.st = .busy → r = Response.busy ∧ i.isTryLock = true
  pgm : r.st = .pgm → r = pgmOnly r.pic ∨
    ∃ v : Word, r = ⟨.pgm, 0x0008#16, 3#2, true, false, BitVec.ofNat 128 v.toNat⟩
  icpt : r.st = .icpt → r.pic = s.cfg.icptCsReason ∧ r.cc = 1#2 ∧ r.ccv = true ∧ r.tk = false ∧
    i.casWidth ≠ none ∧ i.interceptBit = true

theorem replyFits_of_doneReply (h : DoneReply i r) : ReplyFits i s r where
  done _ := h.pic
  branch htk := ⟨h.st, h.branch htk⟩
  busy hst := by simp [h.st] at hst
  pgm hst := by simp [h.st] at hst
  icpt hst := by simp [h.st] at hst

theorem replyFits_busy (h : i.isTryLock = true) : ReplyFits i s Response.busy where
  done hst := by cases hst
  branch htk := by cases htk
  busy _ := ⟨rfl, h⟩
  pgm hst := by cases hst
  icpt hst := by cases hst

theorem replyFits_mismatch {n : Nat} (hwidth : i.casWidth = some n) (hbit : i.interceptBit = true) (old : Wide) :
    ReplyFits i s (mismatchResponse s.cfg true old) where
  done hst := by cases hst
  branch htk := by cases htk
  busy hst := by cases hst
  pgm hst := by cases hst
  icpt _ := ⟨rfl, rfl, rfl, rfl, by simp [hwidth], hbit⟩

theorem replyFits_interrupt (h : Interrupt i s u c k) : ReplyFits i s (Response.interrupt c k) where
  done hst := by cases hst
  branch htk := by cases h <;> cases htk
  busy hst := by cases hst
  pgm _ := by
    cases h with
    | overflow w => exact .inr ⟨w, by rw [← wideOfWord_eq_ofNat]; rfl⟩
    | _ => exact .inl rfl
  icpt hst := by cases hst

theorem answered_complete_of_same (same : SamePorts s u) (hl : s.live) (r : Response) :
    Answered s (u.complete r) r := by
  obtain ⟨hports, hactive⟩ := same
  exact answered_of_ports (by rw [complete_ports, hports, hactive]) hl

theorem waiting_hold_of_same (same : SamePorts s u) (hl : s.live) : Waiting s u.hold := by
  obtain ⟨hports, hactive⟩ := same
  exact waiting_of_ports (by rw [hold_ports, hports, hactive]) hl

theorem answered_of_interrupt (h : Interrupt i s u c k) (hl : s.live) :
    Answered s (u.takeInterrupt c k) (Response.interrupt c k) :=
  answered_complete_of_same (samePorts_of_checked (checked_of_interrupt h)) hl _

/-- A conclusion leaves its port waiting, or answered with a response whose fields fit the ending. -/
theorem waits_or_answers_of_conclusion (h : Conclusion i s t) (hl : s.live) :
    (Waiting s t ∧ i.mayWait = true) ∨ ∃ r, Answered s t r ∧ ReplyFits i s r := by
  cases h with
  | done same reply => exact .inr ⟨_, answered_complete_of_same same hl _, replyFits_of_doneReply reply⟩
  | busy same tries => exact .inr ⟨_, answered_complete_of_same same hl _, replyFits_busy tries⟩
  | intercepted same width bit old =>
    exact .inr ⟨_, answered_complete_of_same same hl _, replyFits_mismatch width bit old⟩
  | interrupted cause => exact .inr ⟨_, answered_of_interrupt cause hl, replyFits_interrupt cause⟩
  | waits same mayWait => exact .inl ⟨waiting_hold_of_same same hl, mayWait⟩

/-- Settles O6: by the conclusion of the command the word names; a rejected word answers with its code alone. -/
theorem everyCommandEndsOrWaits : Obligations.EveryCommandEndsOrWaits := by
  intro s hl
  rcases runCommand_cases s with ⟨i, hdec, hrun⟩ | ⟨e, hdec, hrun⟩
  case inl =>
    obtain ⟨t, hexec, hend⟩ := exec_conclusion i s
    refine ⟨t, hrun.trans hexec, ?_⟩
    rcases waits_or_answers_of_conclusion hend hl with ⟨hwaiting, hwaits⟩ | ⟨r, hanswer, hfits⟩
    · exact .inl ⟨hwaiting, i, hdec, hwaits⟩
    · obtain ⟨-, hcc, -⟩ := conditionCodeComesFromItsCommands i s t r hl hexec hanswer
      refine .inr ⟨r, hanswer, hfits.done, hcc, fun htk => ?branch, fun hst => ?busy, hfits.pgm, fun hst => ?icpt⟩
      case branch =>
        obtain ⟨hst, p, rfl | rfl⟩ := hfits.branch htk
        · exact ⟨hst, p, .inl hdec⟩
        · exact ⟨hst, p, .inr hdec⟩
      case busy =>
        obtain ⟨hr, htry⟩ := hfits.busy hst
        exact ⟨hr, i, hdec, htry⟩
      case icpt =>
        obtain ⟨hpic, hcode, hset, htk, hwidth, hbit⟩ := hfits.icpt hst
        exact ⟨hpic, hcode, hset, htk, i, hdec, hwidth, hbit⟩
  case inr =>
    refine ⟨_, hrun, .inr ⟨_, (onlyAnswered_raisePgm s _ hl).answered, ?_⟩⟩
    simp [pgmOnly]

/-! ### What an interrupt leaves as it was (R317) -/

theorem interrupt_of_conclusion (h : Conclusion i s t) (hl : s.live) (hanswer : Answered s t r) (hst : r.st = .pgm) :
    ∃ u c k, Interrupt i s u c k ∧ t = u.takeInterrupt c k ∧ r = Response.interrupt c k := by
  cases h with
  | done same reply =>
    obtain rfl := answered_unique (answered_complete_of_same same hl _) hanswer
    simp [reply.st] at hst
  | busy same =>
    obtain rfl := answered_unique (answered_complete_of_same same hl _) hanswer
    cases hst
  | intercepted same =>
    obtain rfl := answered_unique (answered_complete_of_same same hl _) hanswer
    cases hst
  | interrupted cause =>
    exact ⟨_, _, _, cause, rfl, answered_unique hanswer (answered_of_interrupt cause hl)⟩
  | waits same => exact absurd hanswer (waiting_not_answered (waiting_hold_of_same same hl))

/-- A program interrupt is that of a word that names no command, or one of the command's own. -/
theorem rejected_or_interrupt_of_pgm (hl : s.live) (hrun : runCommand s = .next t) (hanswer : Answered s t r)
    (hst : r.st = .pgm) :
    (∃ e, decode s.cfg.hasLong s.request.cw = .error e ∧ t = s.raisePgm (rejectionCode e) ∧
        r = pgmOnly (rejectionCode e).pic) ∨
      ∃ i u c k, decode s.cfg.hasLong s.request.cw = .ok i ∧ Interrupt i s u c k ∧
        t = u.takeInterrupt c k ∧ r = Response.interrupt c k := by
  rcases runCommand_cases s with ⟨i, hdec, he⟩ | ⟨e, hdec, he⟩
  · obtain ⟨t', hexec, hend⟩ := exec_conclusion i s
    obtain rfl : t' = t := Host.Outcome.next.inj ((he.trans hexec).symm.trans hrun)
    exact .inr ⟨i, (interrupt_of_conclusion hend hl hanswer hst).imp fun u h => h.imp fun c h => h.imp fun k h =>
      ⟨hdec, h⟩⟩
  · obtain rfl := Host.Outcome.next.inj (he.symm.trans hrun)
    exact .inl ⟨e, hdec, rfl, answered_unique hanswer (onlyAnswered_raisePgm s _ hl).answered⟩

/-- Settles O15: a rejection changes nothing; a command's own interrupt is taken after its checks, which change
nothing but the events and the verdicts. -/
theorem interruptsChangeNothing : Obligations.InterruptsChangeNothing := by
  intro s t r hl hrun hanswer hst
  rcases rejected_or_interrupt_of_pgm hl hrun hanswer hst with
    ⟨e, -, rfl, rfl⟩ | ⟨i, u, c, k, hdec, hint, rfl, rfl⟩
  case inl =>
    have hend := onlyAnswered_raisePgm s (rejectionCode e) hl
    exact ⟨hend.kept, hend.noDraw.hostQueue, fun _ => rfl, .inl hend.noDraw.history⟩
  case inr =>
    have hu : Checked s u := checked_of_interrupt hint
    have hend := onlyAnswered_takeInterrupt u c k (live_of_checked hu hl)
    refine ⟨blockKept_of_checked hu hend.kept, hend.noDraw.hostQueue.trans hu.hostQueue,
      fun hpic => ?suppressed, ?trace⟩
    case suppressed =>
      obtain rfl := suppressing_of_interrupt hint (mt (pic_eq_overflow_iff c).2 hpic)
      rfl
    case trace =>
      rw [takeInterrupt_history]
      exact (history_of_interrupt hint).imp id fun ⟨hhist, n, f, hwidth, hfault, hpic⟩ =>
        ⟨hhist, i, n, f, hdec, hwidth, hfault, hpic⟩

/-! ### The causes of the codes (R311) -/

theorem pic_eq_specialOperation_iff (c : PgmCode) : c.pic = 0x0013#16 ↔ c = .specialOperation := by
  cases c <;> simp [PgmCode.pic]

/-- The overflow of `SLAGL` in the number of its operand: a bit shifted out differs from the sign (R290). -/
theorem longShiftOverflow_operands_iff (s : State) :
    longShiftOverflow s.opALow s.opLongShift = true ↔
      s.request.a.toNat % 2 ^ 63 * 2 ^ (s.request.b.toNat % 64) / 2 ^ 63 ≠
        s.request.a.toNat / 2 ^ 63 % 2 * (2 ^ (s.request.b.toNat % 64) - 1) := by
  have hsign : s.request.a.toNat % 2 ^ 64 / 2 ^ 63 = s.request.a.toNat / 2 ^ 63 % 2 := by omega
  rw [longShiftOverflow_iff, longShiftWide, toNat_opALow, opLongShift_eq, hsign,
    Nat.mod_mod_of_dvd _ (Nat.pow_dvd_pow 2 (by decide))]

/-- The odd registers of a pair form, in the number of the word. -/
theorem odd_registers_of_decode (hi : encode i = s.request.cw) (h : i.pairEven = false) :
    s.request.cw.toNat / 2 ^ 24 = 0x45 ∧
      (s.request.cw.toNat / 2 ^ 12 % 16 = 4 ∨ s.request.cw.toNat / 2 ^ 12 % 16 = 5) ∧
      (s.request.cw.toNat / 16 % 2 = 1 ∨ s.request.cw.toNat % 2 = 1) := by
  obtain ⟨hopc, -, hsel, -, -, -, hr1, hr3⟩ := unpackFields_toNat s.request.cw
  rw [pairEven_eq_false_iff, encode_eq_iff.1 hi, hopc, hsel, hr1, hr3] at h
  obtain ⟨hcode, hform, hodd⟩ := h
  exact ⟨hcode, hform, by omega⟩

/-- The operand of a misaligned compare and swap, in the number of the word. -/
theorem misaligned_operand_of_decode {n : Nat} (hi : encode i = s.request.cw) (hwidth : i.casWidth = some n)
    (h : s.opAd.toNat % n ≠ 0) :
    let sel := s.request.cw.toNat / 2 ^ 12 % 16
    let address := s.request.ad.toNat
    s.request.cw.toNat / 2 ^ 24 = 0x45 ∧ ((sel = 2 ∧ address % 4 ≠ 0) ∨ (sel = 3 ∧ address % 8 ≠ 0) ∨
      (sel = 4 ∧ address % 16 ≠ 0) ∨ (sel = 5 ∧ address % 8 ≠ 0)) := by
  obtain ⟨hopc, -, hsel, -⟩ := unpackFields_toNat s.request.cw
  rw [casWidth_eq_some_iff, encode_eq_iff.1 hi, hopc, hsel] at hwidth
  obtain ⟨hcode, hform⟩ := hwidth
  refine ⟨hcode, ?_⟩
  rcases hform with ⟨hs, rfl⟩ | ⟨hs, rfl⟩ | ⟨hs, rfl⟩ | ⟨hs, rfl⟩
  · exact .inl ⟨hs, h⟩
  · exact .inr (.inl ⟨hs, h⟩)
  · exact .inr (.inr (.inl ⟨hs, h⟩))
  · exact .inr (.inr (.inr ⟨hs, h⟩))

/-- Settles O16: a rejection has the cause the decoder found, an interrupt of a command its own, each told in the
numbers of the word and of the operands. -/
theorem interruptCodesHaveTheirCauses : Obligations.InterruptCodesHaveTheirCauses := by
  intro s t r hwf hrun hanswer hst w opc sel address x y sign n shifted command
  have hs : Wf s := (wf_iff s).1 hwf
  obtain ⟨hopc, hcpu, -⟩ := unpackFields_toNat s.request.cw
  have hassigned : opcAssigned s.cfg.hasLong (unpackFields s.request.cw).opc = true ↔
      opc ∈ opcodeNumbers s.cfg.hasLong := by rw [opcAssigned_eq_true_iff, hopc]
  have hprivileged : opcPrivileged (unpackFields s.request.cw).opc = true ↔
      opc ∈ [0x20, 0x21, 0x24, 0x25, 0x28, 0x31] := by rw [opcPrivileged_eq_true_iff, hopc]
  rcases rejected_or_interrupt_of_pgm (live_of_wf hs) hrun hanswer hst with
    ⟨e, hdec, -, rfl⟩ | ⟨i, u, c, k, hdec, hint, -, rfl⟩
  case inl =>
    rcases decode_eq_error_cases hdec with ⟨rfl, hno⟩ | ⟨rfl, hpriv, hp⟩ | ⟨rfl, ha, hnone⟩
    · exact ⟨by decide, .inl ⟨rfl, fun hmem => by simp [hassigned.2 hmem] at hno⟩⟩
    · exact ⟨by decide, .inr (.inl ⟨rfl, hprivileged.1 hpriv, hp⟩)⟩
    · exact ⟨by decide, .inr (.inr (.inl ⟨rfl, hassigned.1 ha,
        .inl (not_exists.1 (mt (exists_row_iff s.request.cw).1 (not_exists.2 hnone)))⟩))⟩
  case inr =>
    obtain ⟨hi, hlong⟩ := decode_eq_ok_iff.1 hdec
    have hfields : encodeFields i = unpackFields s.request.cw := encode_eq_iff.1 hi
    have ha : opc ∈ opcodeNumbers s.cfg.hasLong := hassigned.1 (opcAssigned_of_decode hdec)
    refine ⟨mt (pic_eq_specialOperation_iff c).1 (ne_specialOperation_of_interrupt hint), ?_⟩
    cases hint with
    | absentFamily long absent => simp [hlong long] at absent
    | unprivileged privileged user =>
      rw [isPrivileged_eq_opcPrivileged, hfields] at privileged
      rw [pBit_eq_p_encodeFields, hfields] at user
      exact .inr (.inl ⟨rfl, hprivileged.1 privileged, user⟩)
    | absentSlot slotted absent =>
      rw [hfields, hopc] at slotted
      rw [hfields, hcpu, hs.slots] at absent
      exact .inr (.inr (.inl ⟨rfl, ha, .inr (.inl ⟨slotted, absent⟩)⟩))
    | oddPair odd => exact .inr (.inr (.inl ⟨rfl, ha, .inr (.inr (.inl (odd_registers_of_decode hi odd)))⟩))
    | misaligned width unaligned =>
      exact .inr (.inr (.inl ⟨rfl, ha, .inr (.inr (.inr (misaligned_operand_of_decode hi width unaligned)))⟩))
    | overflow _ masked =>
      refine .inr (.inr (.inr (.inl ⟨rfl, ?_⟩)))
      cases masked with
      | sum p ovf => exact ⟨p, .inl ⟨hdec, (signedOverflow_iff _).1 ovf⟩⟩
      | difference p ovf => exact ⟨p, .inr (.inl ⟨hdec, (signedOverflow_iff _).1 ovf⟩)⟩
      | shift p ovf => exact ⟨p, .inr (.inr ⟨hdec, (longShiftOverflow_operands_iff s).1 ovf⟩)⟩
    | @lockFault l f kind fault =>
      rw [site_eq] at fault
      exact .inr (.inr (.inr (.inr ⟨i, f, hdec, pic_accessCode f, .inl ⟨l, kind, fault⟩⟩)))
    | @casFault m f width fault =>
      exact .inr (.inr (.inr (.inr ⟨i, f, hdec, pic_accessCode f, .inr ⟨m, width, fault⟩⟩)))

end Sys2Proof.Machine
end

section
/-! Proofs about reset and the hazards of the steered clock (spec/70_reset_and_hazards.md): the values reset leaves
(R350), and that within one steering epoch the clock is as monotone as the host (R370). -/

namespace Sys2Proof.Machine

/-! ### Reset (R350) -/

/-- The host time of a sample as one value (41_host_time.md R162). -/
theorem sampleToEtod_eq_ofNat (c : Config) (h : HostSample) :
    sampleToEtod c h = BitVec.ofNat 128 (hostTime c h.sec.toNat h.nsec.toNat h.fail) :=
  hostToEtod_eq c h.sec h.nsec h.fail

theorem eq_resetCpu_of_mem_resetAt {c : Config} {h : HostSample} {x : Cpu} (hx : x ∈ (State.resetAt c h).cpus) :
    x = resetCpu (sampleToEtod c (deliverSample c h)) :=
  List.eq_of_mem_replicate hx

/-- Settles O9: every slot is the reset slot, and each clock value is the host time of the one sample. -/
theorem resetLeavesTheStatedValues : Obligations.ResetLeavesTheStatedValues := by
  intro c h s d h0
  have hhost : sampleToEtod c d = h0 := sampleToEtod_eq_ofNat c d
  have hhigh : etodHigh (sampleToEtod c d) = h0.extractLsb' 64 64 := congrArg etodHigh hhost
  refine ⟨rfl, rfl, rfl, hhigh, hhost, List.length_replicate, fun x hx => ?slot, rfl⟩
  case slot =>
    obtain rfl := eq_resetCpu_of_mem_resetAt hx
    exact ⟨rfl, hhigh, rfl, rfl, hhigh⟩

/-! ### The steered distance from the start of the epoch (42_steering.md R178) -/

/-- The effective rate is a sum of two signed 32-bit numbers. -/
theorem totalRate_bounds (x : Csr) : -2 ^ 32 ≤ totalRate x ∧ totalRate x ≤ 2 ^ 32 := by
  have hfine := x.fineRate.toInt_lt
  have hfine' := x.fineRate.le_toInt
  have hgross := x.grossRate.toInt_lt
  have hgross' := x.grossRate.le_toInt
  simp only [totalRate]
  omega

/-- A steered distance is the elapsed time scaled by one factor, floored. -/
theorem elapsed_add_steerAdjust (c : Config) (x : Csr) (el : Int) :
    el + steerAdjust c x el =
      el * ((2 ^ c.rateFracBits : Nat) + totalRate x) / (2 ^ c.rateFracBits : Nat) := by
  have hpos : ((2 ^ c.rateFracBits : Nat) : Int) ≠ 0 := by positivity
  rw [steerAdjust, mul_add, Int.mul_add_ediv_right el _ hpos]

/-- With 32 or more fraction bits the scaling factor is not negative, so a longer elapsed time gives no smaller
distance, whatever the rates. -/
theorem elapsed_add_steerAdjust_mono {c : Config} (hbits : 32 ≤ c.rateFracBits) (x : Csr) {el el' : Int}
    (h : el ≤ el') : el + steerAdjust c x el ≤ el' + steerAdjust c x el' := by
  have hunit : ((2 ^ 32 : Nat) : Int) ≤ (2 ^ c.rateFracBits : Nat) :=
    Int.ofNat_le.2 (Nat.pow_le_pow_right (by decide) hbits)
  have hfactor : 0 ≤ ((2 ^ c.rateFracBits : Nat) : Int) + totalRate x := by
    have := (totalRate_bounds x).1
    omega
  rw [elapsed_add_steerAdjust, elapsed_add_steerAdjust]
  exact Int.ediv_le_ediv (by positivity) (mul_le_mul_of_nonneg_right h hfactor)

/-- With 44 fraction bits an elapsed time within `2^62` is steered to a distance that a signed word holds. -/
theorem elapsed_add_steerAdjust_bounds {c : Config} (hbits : c.rateFracBits = 44) (x : Csr) {el : Int}
    (hlow : -2 ^ 62 ≤ el) (hhigh : el ≤ 2 ^ 62) :
    -2 ^ 63 ≤ el + steerAdjust c x el ∧ el + steerAdjust c x el < 2 ^ 63 := by
  have hleast := elapsed_add_steerAdjust_mono (c := c) (by omega) x hlow
  have hmost := elapsed_add_steerAdjust_mono (c := c) (by omega) x hhigh
  have hrate := totalRate_bounds x
  simp only [steerAdjust, hbits] at *
  omega

/-- The steered value's distance from the epoch start is the elapsed time and its adjustment. -/
theorem steer_sub_startTime (c : Config) (x : Csr) (u : Word) :
    steer c x u - x.startTime =
      BitVec.ofInt 64 (elapsedAt x u.toNat + steerAdjust c x (elapsedAt x u.toNat)) := by
  have helapsed : (u + x.baseOffset - x.startTime).toInt = elapsedAt x u.toNat := by
    rw [toInt_sub_bmod, BitVec.toNat_add, elapsedAt]
  rw [BitVec.ofInt_add, ← helapsed, BitVec.ofInt_toInt, steer, wordOfInt]
  ring

/-- The signed steered distance, where it does not wrap. -/
theorem toInt_steer_sub_startTime {c : Config} (hbits : c.rateFracBits = 44) (x : Csr) (u : Word)
    (hlow : -2 ^ 62 ≤ elapsedAt x u.toNat) (hhigh : elapsedAt x u.toNat ≤ 2 ^ 62) :
    (steer c x u - x.startTime).toInt =
      elapsedAt x u.toNat + steerAdjust c x (elapsedAt x u.toNat) := by
  obtain ⟨hleast, hmost⟩ := elapsed_add_steerAdjust_bounds hbits x hlow hhigh
  rw [steer_sub_startTime, toInt_ofInt_bmod]
  exact Int.bmod_eq_of_le hleast hmost

/-! ### Monotonicity within an epoch (R370) -/

/-- Settles O36: within `2^62` neither distance wraps, and the distance does not fall as the elapsed time grows. -/
theorem steeringNeverTurnsTheClockBack : Obligations.SteeringNeverTurnsTheClockBack := by
  intro p q s u hs hu hcsr hcfg hbits earlier later hle hlow hhigh
  have hearlier : elapsedAt s.csr (etodHigh s.hostEtod).toNat = earlier := by rw [hostHigh_toNat]
  have hlater : elapsedAt s.csr (etodHigh u.hostEtod).toNat = later := by rw [hostHigh_toNat]
  refine ⟨_, _, _, _, _, _, exec_fetch p s, exec_fetch q u,
    answered_fetch rfl rfl hs, answered_fetch rfl rfl hu, ?_⟩
  rw [hcfg, hcsr,
    toInt_steer_sub_startTime hbits s.csr _ (by omega) (by omega),
    toInt_steer_sub_startTime hbits s.csr _ (by omega) (by omega),
    hearlier, hlater]
  exact elapsed_add_steerAdjust_mono (by omega) s.csr hle

end Sys2Proof.Machine
end
